-- ==== Sys2Proof/Word.lean ====
section
/-! DEFINITION. The word types of the block (00_scope.md R6, R8): u8, u32 and u64 as bit vectors. -/

namespace Sys2Proof

/-- u32: a register, a hash word, a schedule word (00_scope.md R8). -/
abbrev Word := BitVec 32

/-- u8: a message byte (00_scope.md R8). -/
abbrev Byte := BitVec 8

/-- u64: the byte counter and the length field (00_scope.md R6). -/
abbrev Long := BitVec 64

end Sys2Proof
end

