-- ==== Sys2Proof/Config.lean ====
section
/-! DEFINITION. The parameters the spec leaves OPEN (00_scope.md R7): constants without a body, so that no proof
can lean on a value of them. -/

namespace Sys2Proof

/-- The latencies of R110 (70_reset_and_hazards.md), each finite and at least 0: `LAT_INIT`; `LAT_ABSORB(nb,
compressions)` for nb = 0..4 with no compression (`absorbPlain`) and with one (`absorbFull`); `LAT_FINALIZE(compressions)`
for one compression and for two. -/
structure Latency where
  init        : Nat
  absorbPlain : Vector Nat 5
  absorbFull  : Vector Nat 5
  finalizeOne : Nat
  finalizeTwo : Nat
deriving DecidableEq, Repr, Inhabited

/-- Every latency 0: each command is one atomic step at its write (40_commands.md R56). -/
def Latency.zero : Latency := ⟨0, Vector.replicate 5 0, Vector.replicate 5 0, 0, 0⟩

/-- `RESET_KIND` (00_scope.md R7, 92_eei_decisions.md D35). -/
inductive ResetKind where
  | synchronous
  | asynchronous
deriving DecidableEq, Repr, Inhabited

/-- The implementation's latencies, OPEN (92_eei_decisions.md D16, log entry 4). `State.reset` takes them from here, so
a claim about a run from reset holds for every latency. -/
opaque Config.latency : Latency

/-- `BASE / 64`, OPEN (92_eei_decisions.md D2, log entry 10). -/
opaque Config.baseBlock : Nat

/-- `BASE`, the address of the register block on the host bus: a multiple of 64 by its form (20_memory.md R32). -/
def Config.base : Nat := 64 * Config.baseBlock

/-- `RESET_KIND`, OPEN. No rule depends on it (70_reset_and_hazards.md R101), and no definition of the model reads it
(log entry 11). -/
opaque Config.resetKind : ResetKind

end Sys2Proof
end

