-- ==== Sys2Proof/Syntax.lean ====
section
/-! DEFINITION. The commands of the block: one constructor for each row of spec/opcode_table.json (30_encoding.md R46). -/

namespace Sys2Proof

/-- A command (30_encoding.md R46). ABSORB carries its 3-bit count NB, bits 10:8 of the word (R47). -/
inductive Instr where
  | nop
  | init
  | absorb (nb : BitVec 3)
  | finalize
deriving DecidableEq, Repr

end Sys2Proof
end

