-- ==== Sys2Proof/Machine/State.lean ====
section
/-! DEFINITION. The machine's state: the block's registers as 10_state.md gives them, the operands captured at
acceptance, and the inputs (the host's pending statements, whose turn it is). INVENTORY.md, "State", lists every field
with its rule and its reset value. -/

namespace Sys2Proof.Machine

/-- Why a step stops with a fault. No constructor: the block has no trap (60_exceptions.md R87), an error is a sticky
bit of a next state, and the transform and the padding raise nothing (R94). Raised by nobody, so neither safe nor unsafe. -/
inductive Fault where
deriving DecidableEq, Repr

/-- Why a step is refused. -/
inductive Refusal where
  /-- Raised by an arm of `exec` that has no meaning yet. Safe. No arm raises it now. -/
  | notModelled (mnemonic : String)
  /-- Raised by the host's turn (`hostTurn`) for an access that is not a 32-bit access at a 4-byte-aligned offset in
  0x00..0x3C: "A model refuses such an access" (20_memory.md R33). Safe: the model stops. Log entry 14. -/
  | accessOutsideContract
deriving DecidableEq, Repr

/-- `LC`, the lifecycle state (10_state.md R20). Encoding 3 is never taken, so the type has no such value. -/
inductive Lc where
  | empty
  | active
  | done
deriving DecidableEq, Repr

/-- The phases of `SEQ` (10_state.md R19). -/
inductive Phase where
  | idle
  | absorb
  | pad
  | sched
  | round
  | feed
deriving DecidableEq, Repr

/-- `SEQ`, the sequencing state: a phase and a byte, schedule or round index 0..63 (10_state.md R19). -/
structure Seq where
  phase : Phase
  t     : Fin 64
deriving DecidableEq, Repr

/-- The working variables a..h (10_state.md R18). -/
structure Work where
  a : Word
  b : Word
  c : Word
  d : Word
  e : Word
  f : Word
  g : Word
  h : Word
deriving DecidableEq, Repr

/-- `H[0..7]` (10_state.md R13). -/
abbrev Hash := Vector Word 8

/-- `BUF[0..63]`, one 64-byte block (10_state.md R15). -/
abbrev Block := Vector Byte 64

/-- `W[0..63]`, the message schedule (10_state.md R17). -/
abbrev Schedule := Vector Word 64

/-- What a running command holds: the command (with its NB) and the DATA_IN value captured at acceptance (40_commands.md
R56: `op_nb`, `op_din`), FINALIZE's `bc` (42_finalize.md R81), and where the command goes on after the compression
inside it, `none` after FINALIZE's last one (the model's own field, log entry 5). -/
structure Latch where
  op     : Instr
  din    : Word
  bc     : Long
  resume : Option Seq
deriving DecidableEq, Repr

/-- The registers of the register block (20_memory.md R32). -/
inductive Reg where
  | cmd
  | status
  | dataIn
  | digest (k : Fin 8)
  | reserved
deriving DecidableEq, Repr

/-- A bus access: its offset from BASE and its width in bytes (20_memory.md R33; offsets: R32, log entry 10). -/
structure Access where
  off   : Nat
  bytes : Nat
deriving DecidableEq, Repr

/-- The host bus statements of 30_encoding.md R54. -/
inductive Stmt where
  | wr (a : Access) (v : Word)
  | rd (a : Access) (name : String)
  | poll
  | expect (name : String) (v : Word)
deriving DecidableEq, Repr

/-- The host agent: its pending statements, the variables its reads bound (the latest first), and whether every
assertion so far held (30_encoding.md R54; log entries 7 and 8). -/
structure HostAgent where
  program  : List Stmt
  vars     : List (String × Word)
  expectOk : Bool
deriving DecidableEq, Repr

/-- Who moves: the host, the engine, or the reset input (log entry 3). -/
inductive Turn where
  | host
  | engine
  | reset
deriving DecidableEq, Repr

/-- The machine. The first six fields are the message and transform state (10_state.md §1, §2), the next seven the
interface state (§3), then the captured operands, and last the model's parameters and inputs. -/
structure State where
  h       : Hash
  count   : Long
  buf     : Block
  w       : Schedule
  work    : Work
  seq     : Seq
  lc      : Lc
  busy    : Bool
  errCmd  : Bool
  errSeq  : Bool
  errOvf  : Bool
  errBusy : Bool
  dataIn  : Word
  latch   : Latch
  lat     : Latency
  turns   : List Turn
  host    : HostAgent
deriving DecidableEq, Repr

/-- `(IDLE, 0)` (10_state.md R19). -/
def Seq.rest : Seq := ⟨.idle, 0⟩

/-- All working variables 0. -/
def Work.zero : Work := ⟨0, 0, 0, 0, 0, 0, 0, 0⟩

/-- What the latch holds while no command runs (log entry 6). -/
def Latch.rest : Latch := ⟨.nop, 0, 0, none⟩

/-- The machine right after reset (70_reset_and_hazards.md R101). H, COUNT, BUF, W and a..h are unspecified there and
take the values of log entry 1; no rule reads one before it is written. -/
def State.reset : State where
  h       := Vector.replicate 8 0
  count   := 0
  buf     := Vector.replicate 64 0
  w       := Vector.replicate 64 0
  work    := Work.zero
  seq     := Seq.rest
  lc      := .empty
  busy    := false
  errCmd  := false
  errSeq  := false
  errOvf  := false
  errBusy := false
  dataIn  := 0
  latch   := Latch.rest
  lat     := Config.latency
  turns   := []
  host    := ⟨[], [], true⟩

end Sys2Proof.Machine
end

