-- ==== Sys2Proof/Machine/Operands.lean ====
section
/-! DEFINITION. Operand forms and byte order: the bytes of a word in stream order and big-endian packing (00_scope.md
R10, 20_memory.md R36), ABSORB's operand bytes (30_encoding.md R51) and FINALIZE's bit count (42_finalize.md R81). -/

namespace Sys2Proof.Machine

/-- Byte `j` (0..3) of a word in stream order: `x[31-8j : 24-8j]` (00_scope.md R10). -/
def wordByte (x : Word) (j : Nat) : Byte := x.extractLsb' (24 - 8 * j) 8

/-- Byte `j` (0..7) of a u64 in stream order: `v[63-8j : 56-8j]` (00_scope.md R10). -/
def longByte (v : Long) (j : Nat) : Byte := v.extractLsb' (56 - 8 * j) 8

/-- `BE32(b0, b1, b2, b3) = {b0, b1, b2, b3}` (00_scope.md R10). -/
def be32 (b0 b1 b2 b3 : Byte) : Word := b0 ++ b1 ++ b2 ++ b3

/-- The operand bytes of `ABSORB nb`: the first `nb` bytes of the captured DATA_IN, most significant first
(30_encoding.md R51). -/
def operandBytes (din : Word) (nb : Nat) : List Byte := (List.range nb).map (wordByte din)

/-- `bc = (COUNT * 8) mod 2^64` (42_finalize.md R81). -/
def bitCount (count : Long) : Long := count * 8

/-- The offset `COUNT mod 64`, the next free byte of BUF (10_state.md R16). -/
def offset (s : State) : Nat := s.count.toNat % 64

end Sys2Proof.Machine
end

