-- ==== Sys2Proof/Machine/Compress.lean ====
section
/-! DEFINITION. The compression transform (41_compression.md): the bit functions, the message scheduler, the round
processor, the feed-forward, and their composition COMPRESS as one step. -/

namespace Sys2Proof.Machine

/-! ## Bit functions -/

/-- `rotr(x, n) = ((x >> n) | (x << (32 - n))) mod 2^32`, for 0 < n < 32 (R62). -/
def rotr (x : Word) (n : Nat) : Word := (x >>> n) ||| (x <<< (32 - n))

/-- The small sigma 0 of the message scheduler (R64). -/
def smallSigma0 (x : Word) : Word := rotr x 7 ^^^ rotr x 18 ^^^ (x >>> 3)

/-- The small sigma 1 of the message scheduler (R65). -/
def smallSigma1 (x : Word) : Word := rotr x 17 ^^^ rotr x 19 ^^^ (x >>> 10)

/-- The big sigma 0 of the round processor (R66). -/
def bigSigma0 (x : Word) : Word := rotr x 2 ^^^ rotr x 13 ^^^ rotr x 22

/-- The big sigma 1 of the round processor (R67). -/
def bigSigma1 (x : Word) : Word := rotr x 6 ^^^ rotr x 11 ^^^ rotr x 25

/-- Choose (R68). -/
def ch (x y z : Word) : Word := (x &&& y) ^^^ (~~~x &&& z)

/-- Majority (R69). -/
def maj (x y z : Word) : Word := (x &&& y) ^^^ (x &&& z) ^^^ (y &&& z)

/-! ## Message scheduler -/

/-- `BE32(BUF[4j], BUF[4j+1], BUF[4j+2], BUF[4j+3])`, for j = 0..15 (R71). -/
def blockWord (b : Block) (j : Fin 16) : Word :=
  be32 b[4 * j.val] b[4 * j.val + 1] b[4 * j.val + 2] b[4 * j.val + 3]

/-- Block parse (R71): W[0..15] from the block; W[16..63] not yet written. -/
@[irreducible] def parseBlock (b : Block) (w : Schedule) : Schedule :=
  Vector.ofFn fun i => if h : i.val < 16 then blockWord b ⟨i.val, h⟩ else w[i]

/-- One step of the schedule expansion, t = 16..63 (R72). No other t has one. -/
def expandAt (t : Nat) (w : Schedule) : Schedule :=
  if h : 16 ≤ t ∧ t < 64 then
    w.set t (smallSigma1 w[t - 2] + w[t - 7] + smallSigma0 w[t - 15] + w[t - 16])
  else w

/-- `n` steps of the schedule expansion in increasing order, from `t` on (R72). -/
def expandFrom : Nat → Nat → Schedule → Schedule
  | 0, _, w => w
  | n + 1, t, w => expandFrom n (t + 1) (expandAt t w)

/-- The whole schedule: block parse, then t = 16..63 (R71, R72). -/
@[irreducible] def scheduleOf (b : Block) (w : Schedule) : Schedule := expandFrom 48 16 (parseBlock b w)

/-! ## Round processor -/

/-- Load the working variables from the hash words (R73). -/
def loadWork (h : Hash) : Work := ⟨h[0], h[1], h[2], h[3], h[4], h[5], h[6], h[7]⟩

/-- `T1` of round t (R74). -/
def roundT1 (t : Nat) (wt : Word) (v : Work) : Word := v.h + bigSigma1 v.e + ch v.e v.f v.g + K t + wt

/-- `T2` of a round (R74). -/
def roundT2 (v : Work) : Word := bigSigma0 v.a + maj v.a v.b v.c

/-- Round t, t = 0..63: every right-hand side is read before anything is written (R74). -/
def roundAt (t : Nat) (w : Schedule) (v : Work) : Work :=
  if h : t < 64 then
    { h := v.g, g := v.f, f := v.e, e := v.d + roundT1 t w[t] v
      d := v.c, c := v.b, b := v.a, a := roundT1 t w[t] v + roundT2 v }
  else v

/-- `n` rounds in increasing order, from round `t` on (R74, R76). -/
def roundsFrom : Nat → Nat → Schedule → Work → Work
  | 0, _, _, v => v
  | n + 1, t, w, v => roundsFrom n (t + 1) w (roundAt t w v)

/-- Feed-forward (R75). -/
def feedForward (h : Hash) (v : Work) : Hash :=
  #v[h[0] + v.a, h[1] + v.b, h[2] + v.c, h[3] + v.d, h[4] + v.e, h[5] + v.f, h[6] + v.g, h[7] + v.h]

/-! ## Composition -/

/-- The working variables after the 64 rounds, from the hash words, the block and what W held (R71 to R74). -/
@[irreducible] def finalWork (h : Hash) (b : Block) (w : Schedule) : Work := roundsFrom 64 0 (scheduleOf b w) (loadWork h)

/-- COMPRESS as one step of the machine: it reads BUF and H and writes W, a..h and H (R76). -/
def compress (s : State) : State :=
  { s with
    w := scheduleOf s.buf s.w
    work := finalWork s.h s.buf s.w
    h := feedForward s.h (finalWork s.h s.buf s.w) }

/-- The new hash words as a function of the old ones and the block alone (R76: "The new H depends only on the old H and
the 64 bytes of BUF"). -/
def compressHash (h : Hash) (b : Block) : Hash := feedForward h (finalWork h b (Vector.replicate 64 0))

end Sys2Proof.Machine
end

