-- ==== Sys2Proof/Machine/Flags.lean ====
section
/-! DEFINITION. The STATUS register and its bits (10_state.md R20 to R24): every status computation of the block. -/

namespace Sys2Proof.Machine

/-- The encoding of LC in STATUS[2:1] (10_state.md R20). -/
def Lc.code : Lc → BitVec 2
  | .empty => 0
  | .active => 1
  | .done => 2

/-- The four error causes (60_exceptions.md R88 to R91). -/
inductive Err where
  | cmd
  | seq
  | ovf
  | busy
deriving DecidableEq, Repr

/-- The cause code: the number of the error's STATUS bit (60_exceptions.md §2). -/
def Err.code : Err → Nat
  | .cmd => 8
  | .seq => 9
  | .ovf => 10
  | .busy => 11

/-- Whether an error bit is set (10_state.md R22). -/
def State.err (s : State) : Err → Bool
  | .cmd => s.errCmd
  | .seq => s.errSeq
  | .ovf => s.errOvf
  | .busy => s.errBusy

/-- A truth value as the word 0 or 1. -/
def bit (b : Bool) : Word := (BitVec.ofBool b).setWidth 32

/-- `STATUS = BUSY | LC<<1 | ERR_CMD<<8 | ERR_SEQ<<9 | ERR_OVF<<10 | ERR_BUSY<<11` (10_state.md R24). -/
def status (s : State) : Word :=
  bit s.busy ||| (s.lc.code.setWidth 32 <<< 1) ||| (bit s.errCmd <<< 8) ||| (bit s.errSeq <<< 9) |||
    (bit s.errOvf <<< 10) ||| (bit s.errBusy <<< 11)

/-- INIT's acceptance clears all four error bits (40_commands.md R57, 60_exceptions.md R93). -/
def clearErrors (s : State) : State :=
  { s with errCmd := false, errSeq := false, errOvf := false, errBusy := false }

end Sys2Proof.Machine
end

