-- ==== Sys2Proof/Machine/Ops.lean ====
section
/-! DEFINITION. The named operations over the registers: raising an error (the block's one exception mechanism), the
life cycle of a command (acceptance and completion), the register block's views and addresses, and the host's own
variables. -/

namespace Sys2Proof.Machine

/-! ## Errors -/

/-- `raise ERR_x` (00_scope.md R11, 60_exceptions.md R87): set the error bit, discard the command, change nothing else;
ERR_OVF also writes `LC <- EMPTY` (R90). There is no trap and nothing to return from. -/
def raise (e : Err) (s : State) : State :=
  match e with
  | .cmd => { s with errCmd := true }
  | .seq => { s with errSeq := true }
  | .ovf => { s with errOvf := true, lc := .empty }
  | .busy => { s with errBusy := true }

/-! ## Command life cycle -/

/-- DATA_IN as a command captures it: ABSORB only (40_commands.md R56). -/
def capturedDin (d : Instr) (s : State) : Word :=
  match d with
  | .absorb _ => s.dataIn
  | .nop => 0
  | .init => 0
  | .finalize => 0

/-- The place in SEQ where an accepted command starts (10_state.md R19; log entry 5). -/
def firstSeq (d : Instr) : Seq :=
  match d with
  | .nop => Seq.rest
  | .init => ⟨.absorb, 0⟩
  | .absorb _ => ⟨.absorb, 0⟩
  | .finalize => ⟨.pad, 0⟩

/-- Acceptance (40_commands.md R56): the operands are captured, `BUSY <- 1`, and SEQ leaves IDLE. -/
def accept (d : Instr) (s : State) : State :=
  { s with busy := true, seq := firstSeq d, latch := ⟨d, capturedDin d s, 0, none⟩ }

/-- Completion (40_commands.md R56): `BUSY <- 0; SEQ <- (IDLE, 0)`. The latch goes back to rest (log entry 6). -/
def complete (s : State) : State :=
  { s with busy := false, seq := Seq.rest, latch := Latch.rest }

/-- R56 from acceptance on. With latency 0 the whole command is this one step; with a positive latency it is accepted
here, and the engine agent takes it through SEQ (log entry 4). -/
def runAccepted (latency : Nat) (d : Instr) (effect : State → State) (s : State) : State :=
  match latency with
  | 0 => complete (effect (accept d s))
  | _ + 1 => accept d s

/-- Move SEQ. -/
def goto (q : Seq) (s : State) : State := { s with seq := q }

/-! ## The register block -/

/-- The accesses the block admits: 32 bits wide, 4-byte aligned, inside 0x00..0x3C (20_memory.md R33). -/
def Access.admitted (a : Access) : Bool := decide (a.bytes = 4 ∧ a.off % 4 = 0 ∧ a.off < 64)

/-- The register at an admitted offset (20_memory.md R32). -/
def regAt (off : Nat) : Reg :=
  if off = 0x00 then .cmd
  else if off = 0x04 then .status
  else if off = 0x08 then .dataIn
  else if h : 0x10 ≤ off ∧ off < 0x30 then .digest ⟨(off - 0x10) / 4, by omega⟩
  else .reserved

/-- `off(REG)` (20_memory.md R32). `reserved` stands for the first reserved word, 0x0C. -/
def Reg.offset : Reg → Nat
  | .cmd => 0x00
  | .status => 0x04
  | .dataIn => 0x08
  | .digest k => 0x10 + 4 * k.val
  | .reserved => 0x0C

/-- The 32-bit access to a register, `MemRead(off(REG), 4)` or `MemWrite(off(REG), 4, v)` (30_encoding.md R54). -/
def Access.ofReg (r : Reg) : Access := ⟨r.offset, 4⟩

/-- The bus address of an offset in the register block (20_memory.md R32). -/
def busAddress (off : Nat) : Nat := Config.base + off

/-- Which offset of the register block a bus address reaches, if any (20_memory.md R32, R43). -/
def offsetOfAddress (addr : Nat) : Option Nat :=
  if Config.base ≤ addr ∧ addr < Config.base + 64 then some (addr - Config.base) else none

/-- `DIGESTk` reads `H[k]` when LC = DONE and BUSY = 0, and 0 otherwise (10_state.md R26). -/
def digestReg (s : State) (k : Fin 8) : Word :=
  if s.lc = .done ∧ s.busy = false then s.h[k] else 0

/-- A bus read: no side effect (20_memory.md R34), so only a value. CMD and the reserved offsets read 0 (R32). -/
def busRead (r : Reg) (s : State) : Word :=
  match r with
  | .cmd => 0
  | .status => status s
  | .dataIn => s.dataIn
  | .digest k => digestReg s k
  | .reserved => 0

/-- A write to DATA_IN replaces all 32 bits (10_state.md R23). -/
def writeDataIn (v : Word) (s : State) : State := { s with dataIn := v }

/-- The digest as the byte string D[0..31] the host reads: `D[4k+j] = DIGESTk[31-8j : 24-8j]` (42_finalize.md R86). -/
def digestByte (s : State) (n : Fin 32) : Byte :=
  wordByte (digestReg s ⟨n.val / 4, by omega⟩) (n.val % 4)

/-! ## The host's own state -/

/-- Go on with these pending statements. -/
def withProgram (p : List Stmt) (s : State) : State := { s with host := { s.host with program := p } }

/-- `name <- value` (30_encoding.md R54): the latest binding stands first. -/
def bindVar (x : String) (v : Word) (s : State) : State :=
  { s with host := { s.host with vars := (x, v) :: s.host.vars } }

/-- The value of a host variable, if it was ever bound. -/
def HostAgent.value? (a : HostAgent) (x : String) : Option Word := a.vars.lookup x

/-- `EXPECT name == v`: the host's own assertion, with no effect on the engine (30_encoding.md R54). Only whether every
assertion so far held is kept (log entry 8). -/
def checkExpect (x : String) (v : Word) (s : State) : State :=
  { s with host := { s.host with expectOk := s.host.expectOk && decide (s.host.value? x = some v) } }

/-- The turns that remain. -/
def withTurns (ts : List Turn) (s : State) : State := { s with turns := ts }

/-- The reset input (70_reset_and_hazards.md R101, R102): the block takes its reset values whatever it was doing. The
host, the parameters and the coming turns are outside the block and stay (log entry 2). -/
def resetBlock (s : State) : State :=
  { State.reset with lat := s.lat, turns := s.turns, host := s.host }

end Sys2Proof.Machine
end

