-- ==== Sys2Proof/Machine/Message.lean ====
section
/-! DEFINITION. The message path: absorb_byte (40_commands.md R59), the effects of INIT, ABSORB and FINALIZE as their
rules give them in one atomic step (40_commands.md R57, R58; 42_finalize.md R80 to R85). -/

namespace Sys2Proof.Machine

/-- The write half of absorb_byte: `BUF[COUNT mod 64] <- b; COUNT <- (COUNT + 1) mod 2^64` (40_commands.md R59). -/
def placeByte (b : Byte) (s : State) : State :=
  { s with buf := s.buf.set (s.count.toNat % 64) b (Nat.mod_lt _ (by decide)), count := s.count + 1 }

/-- absorb_byte: place the byte, and compress when the offset wraps to 0 (40_commands.md R59). -/
def absorbByte (b : Byte) (s : State) : State :=
  let s' := placeByte b s
  if offset s' = 0 then compress s' else s'

/-- The bytes of one command, strictly one after another (40_commands.md R58, R59). -/
def absorbBytes (bs : List Byte) (s : State) : State := bs.foldl (fun s b => absorbByte b s) s

/-- INIT's effect (40_commands.md R57). BUF, W and a..h are not written. -/
def initEffect (s : State) : State := { s with h := IV, count := 0, lc := .active }

/-- ABSORB's effect, on the captured DATA_IN (40_commands.md R58). -/
def absorbEffect (nb : Nat) (s : State) : State := absorbBytes (operandBytes s.latch.din nb) s

/-- `while COUNT mod 64 != 56: absorb_byte(0x00)`, with room for `n` bytes (42_finalize.md R80, R82). At most 63 are
needed, so FINALIZE's 64 never run out. -/
def padZeros : Nat → State → State
  | 0, s => s
  | n + 1, s => if offset s = 56 then s else padZeros n (absorbByte 0x00 s)

/-- `BUF[56+j] <- bc[63-8j : 56-8j]` for j = 0..7, direct writes (42_finalize.md R83). -/
@[irreducible] def lengthBlock (bc : Long) (b : Block) : Block :=
  Vector.ofFn fun i => if 56 ≤ i.val then longByte bc (i.val - 56) else b[i]

/-- Step 4 of FINALIZE: the length field goes into BUF; COUNT does not move (42_finalize.md R83). -/
def writeLength (bc : Long) (s : State) : State := { s with buf := lengthBlock bc s.buf }

/-- `LC <- DONE` and the scrub of BUF, W, a..h and COUNT (42_finalize.md R85). H keeps the digest. -/
def consume (s : State) : State :=
  { s with
    lc := .done
    buf := Vector.replicate 64 0
    w := Vector.replicate 64 0
    work := Work.zero
    count := 0 }

/-- FINALIZE's effect (42_finalize.md R80): the bit count is taken before any padding byte is absorbed (R81). -/
def finalizeEffect (s : State) : State :=
  let bc := bitCount s.count
  consume (compress (writeLength bc (padZeros 64 (absorbByte 0x80 s))))

end Sys2Proof.Machine
end

