-- ==== Sys2Proof/Machine/Engine.lean ====
section
/-! DEFINITION. The engine agent: one engine step of a running command, through SEQ (10_state.md R19, 41_compression.md
R77). The engine steps of a command together have the effect its rule gives in one atomic step (40_commands.md R56). -/

namespace Sys2Proof.Machine

/-- A byte filled the block: go through COMPRESS and come back to `next` (40_commands.md R59, 41_compression.md R77). -/
def startCompress (next : Option Seq) (s : State) : State :=
  { s with seq := ⟨.sched, 0⟩, latch := { s.latch with resume := next } }

/-- `(ABSORB, t)`. INIT has this one step (log entry 5). ABSORB nb places byte t while t < nb, and completes at t = nb.
No other command is ever there, and INIT at another t, t beyond nb, and nb above 4 are in no run: what the model does there
is its own choice (DESIGN CHOICE, log entry 13). -/
def absorbPhase (s : State) : State :=
  match s.latch.op with
  | .init => complete (initEffect s)
  | .absorb nb =>
    if s.seq.t.val < nb.toNat then
      let s' := placeByte (wordByte s.latch.din s.seq.t.val) s
      if offset s' = 0 then startCompress (some ⟨.absorb, s.seq.t + 1⟩) s' else goto ⟨.absorb, s.seq.t + 1⟩ s'
    else complete s
  | .nop => s
  | .finalize => s

/-- The padding byte of `(PAD, t)`: 0x80 at t = 0, then zeros (42_finalize.md R82). -/
def padByte (t : Fin 64) : Byte := if t = 0 then 0x80 else 0x00

/-- Step 1 of FINALIZE at `(PAD, 0)`: the bit count, before any padding byte (42_finalize.md R81). -/
def takeBitCount (s : State) : State :=
  if s.seq.t = 0 then { s with latch := { s.latch with bc := bitCount s.count } } else s

/-- `(PAD, t)`: one padding byte. At offset 0 the block is full; at offset 56 the length field follows and the last
compression starts (42_finalize.md R82 to R84). Only FINALIZE is ever there; a t and an offset that do not belong together,
the wrap of t after 63 included, are in no run, and the step is the same there (DESIGN CHOICE, log entry 13). -/
def padPhase (s : State) : State :=
  match s.latch.op with
  | .finalize =>
    let s' := placeByte (padByte s.seq.t) (takeBitCount s)
    if offset s' = 0 then startCompress (some ⟨.pad, s.seq.t + 1⟩) s'
    else if offset s' = 56 then startCompress none (writeLength s'.latch.bc s')
    else goto ⟨.pad, s.seq.t + 1⟩ s'
  | .nop => s
  | .init => s
  | .absorb _ => s

/-- `(SCHED, 0)`: W[0..15] and a..h loaded. `(SCHED, t)`, t = 16..63: one schedule word. `(SCHED, 1..15)` do not exist
(41_compression.md R77) and have no step (DESIGN CHOICE, log entry 13). -/
def schedPhase (s : State) : State :=
  if s.seq.t = 0 then
    { s with w := parseBlock s.buf s.w, work := loadWork s.h, seq := ⟨.sched, 16⟩ }
  else if 16 ≤ s.seq.t.val then
    { s with
      w := expandAt s.seq.t.val s.w
      seq := if s.seq.t.val = 63 then ⟨.round, 0⟩ else ⟨.sched, s.seq.t + 1⟩ }
  else s

/-- `(ROUND, t)`, t = 0..63 (41_compression.md R77). -/
def roundPhase (s : State) : State :=
  { s with
    work := roundAt s.seq.t.val s.w s.work
    seq := if s.seq.t.val = 63 then ⟨.feed, 0⟩ else ⟨.round, s.seq.t + 1⟩ }

/-- `(FEED, 0)`: the feed-forward (41_compression.md R77). Then the command goes on where it was; after FINALIZE's last
compression this step is its completion, with the scrub (42_finalize.md R85; log entry 5). R77 names `(FEED, 0)` only. No
run reaches `(FEED, 1..63)`, nor `resume = none` in FEED with a command other than FINALIZE; the model does there what it
does at `(FEED, 0)`, and with `resume = none` the completion to DONE, whatever t and the command are (DESIGN CHOICE, log
entry 13). -/
def feedPhase (s : State) : State :=
  let s' := { s with h := feedForward s.h s.work }
  match s.latch.resume with
  | some q => goto q { s' with latch := { s'.latch with resume := none } }
  | none => complete (consume s')

/-- One engine step. At IDLE the engine has none (10_state.md R19, 60_exceptions.md R100). The step looks at SEQ and the
latch only, not at BUSY or LC: where these do not fit together, which no run reaches, it is the model's choice (DESIGN
CHOICE, log entry 13). -/
def engineStep (s : State) : State :=
  match s.seq.phase with
  | .idle => s
  | .absorb => absorbPhase s
  | .pad => padPhase s
  | .sched => schedPhase s
  | .round => roundPhase s
  | .feed => feedPhase s

/-- `n` engine steps with nothing between them. -/
def engineRun : Nat → State → State
  | 0, s => s
  | n + 1, s => engineRun n (engineStep s)

end Sys2Proof.Machine
end

