-- ==== Sys2Proof/WellFormed.lean ====
section
/-! DEFINITION. Which commands a word can stand for: NB is 0 to 4 (30_encoding.md R47). -/

namespace Sys2Proof

/-- R47: an ABSORB takes 0 to 4 bytes; NB = 5, 6 or 7 is illegal. The other commands have no operand. -/
def Instr.wellFormed : Instr → Bool
  | .nop => true
  | .init => true
  | .absorb nb => decide (nb.toNat ≤ 4)
  | .finalize => true

/-- `Instr.wellFormed` as a proposition. -/
abbrev WellFormed (i : Instr) : Prop := i.wellFormed = true

end Sys2Proof
end

