-- ==== Sys2Proof/Decode.lean ====
section
/-! DEFINITION. The decoder of command words (30_encoding.md R45 to R49), total on every 32-bit word, then the encoder
(R45, R46) and the disassembler's spelling (R53). -/

namespace Sys2Proof

/-- `OP`, bits 3:0 (30_encoding.md R45). -/
def opField (c : Word) : BitVec 4 := c.extractLsb' 0 4

/-- `RSV0`, bits 7:4 (30_encoding.md R45). -/
def rsv0Field (c : Word) : BitVec 4 := c.extractLsb' 4 4

/-- `NB`, bits 10:8 (30_encoding.md R45). -/
def nbField (c : Word) : BitVec 3 := c.extractLsb' 8 3

/-- `RSV1`, bits 31:11 (30_encoding.md R45). -/
def rsv1Field (c : Word) : BitVec 21 := c.extractLsb' 11 21

/-- Why a word is ILLEGAL: the four grounds of 60_exceptions.md R88. -/
inductive Illegal where
  | reservedBit   -- a bit of [31:11] or [7:4] is set
  | reservedOp    -- OP is 0x4 to 0xF
  | countTooBig   -- an ABSORB with NB 5 to 7
  | countWithoutAbsorb -- NB is not 0 and OP is NOP, INIT or FINALIZE
deriving DecidableEq, Repr

/-- The decoder's answer: `Command | ILLEGAL` (30_encoding.md R48). -/
inductive Verdict where
  | command (i : Instr)
  | illegal (why : Illegal)
deriving DecidableEq, Repr

/-- The command of a verdict, if it is one. -/
def Verdict.command? : Verdict → Option Instr
  | .command i => some i
  | .illegal _ => none

/-- R48, in its order: the reserved bits, then OP with NB. -/
def decode (c : Word) : Verdict :=
  if rsv1Field c ≠ 0 ∨ rsv0Field c ≠ 0 then .illegal .reservedBit
  else if opField c = 0x0 then
    if nbField c = 0 then .command .nop else .illegal .countWithoutAbsorb
  else if opField c = 0x1 then
    if nbField c = 0 then .command .init else .illegal .countWithoutAbsorb
  else if opField c = 0x2 then
    if (nbField c).toNat ≤ 4 then .command (.absorb (nbField c)) else .illegal .countTooBig
  else if opField c = 0x3 then
    if nbField c = 0 then .command .finalize else .illegal .countWithoutAbsorb
  else .illegal .reservedOp

/-- A command word from its two fields; RSV1 and RSV0 are 0 (30_encoding.md R45). -/
def commandWord (op : BitVec 4) (nb : BitVec 3) : Word := (0 : BitVec 21) ++ nb ++ (0 : BitVec 4) ++ op

/-- The word of a command (30_encoding.md R45, R46). -/
def encode : Instr → Word
  | .nop => commandWord 0x0 0
  | .init => commandWord 0x1 0
  | .absorb nb => commandWord 0x2 nb
  | .finalize => commandWord 0x3 0

/-- What the decoder reads from a word numbered as spec/opcode_table.json numbers it. Every command is one 32-bit word
(30_encoding.md R44), so the word is `w` itself, less any bit at or above `nbits` (log entry 15). -/
def decodeTableWord (nbits w : Nat) : Option Instr := (decode (BitVec.ofNat 32 (w % 2 ^ nbits))).command?

/-- A hexadecimal digit as the spec writes it: lower case. -/
def hexDigit (n : Nat) : Char := "0123456789abcdef".toList.getD n '0'

/-- A word as `0x` and 8 hexadecimal digits (00_scope.md R8). -/
def hexWord (c : Word) : String :=
  "0x" ++ String.ofList ([28, 24, 20, 16, 12, 8, 4, 0].map fun sh => hexDigit (c.toNat / 2 ^ sh % 16))

/-- The disassembler's spelling of a word (30_encoding.md R53). -/
def spell (c : Word) : String :=
  match decode c with
  | .command .nop => "NOP"
  | .command .init => "INIT"
  | .command (.absorb nb) => "ABSORB " ++ String.ofList [hexDigit nb.toNat]
  | .command .finalize => "FINALIZE"
  | .illegal _ => ".word " ++ hexWord c ++ " ; illegal"

end Sys2Proof
end

