-- ==== Sys2Proof/Machine/Commands.lean ====
section
/-! DEFINITION. The meaning of each command: a legal command word presented to the engine (40_commands.md R56). The
checks stand in the order of R56 and 60_exceptions.md R92: BUSY, then the word, then the lifecycle, then the counter. -/

namespace Sys2Proof.Machine

/-- How many compressions ABSORB nb makes: one when a byte of it fills the block (40_commands.md R58, R59). -/
def absorbCompressions (nb : Nat) (s : State) : Nat := if 64 ≤ offset s + nb then 1 else 0

/-- How many compressions FINALIZE makes: two when r = COUNT mod 64 is 56 or more (42_finalize.md R84). -/
def finalizeCompressions (s : State) : Nat := if 56 ≤ offset s then 2 else 1

/-- `LAT_ABSORB(nb, compressions)` (70_reset_and_hazards.md R110). Only NB = 0..4 is ever accepted. -/
def absorbLatency (l : Latency) (nb compressions : Nat) : Nat :=
  match compressions with
  | 0 => l.absorbPlain[nb]?.getD 0
  | _ + 1 => l.absorbFull[nb]?.getD 0

/-- `LAT_FINALIZE(compressions)` (70_reset_and_hazards.md R110). -/
def finalizeLatency (l : Latency) (compressions : Nat) : Nat :=
  match compressions with
  | 0 => l.finalizeOne
  | 1 => l.finalizeOne
  | _ + 2 => l.finalizeTwo

/-- NOP (40_commands.md R60): no BUSY, no effect; ERR_BUSY like every other command word. -/
def execNop (s : State) : Host.Outcome State Fault Refusal :=
  .next (if s.busy then raise .busy s else s)

/-- INIT (40_commands.md R57): legal in every lifecycle state; the error bits are cleared at acceptance. -/
def execInit (s : State) : Host.Outcome State Fault Refusal :=
  .next (if s.busy then raise .busy s else runAccepted s.lat.init .init initEffect (clearErrors s))

/-- ABSORB nb (40_commands.md R58). A count of 5 to 7 is no command: its word is ILLEGAL (30_encoding.md R47, log
entry 9). -/
def execAbsorb (nb : BitVec 3) (s : State) : Host.Outcome State Fault Refusal :=
  .next (
    if s.busy then raise .busy s
    else if 4 < nb.toNat then raise .cmd s
    else if s.lc ≠ .active then raise .seq s
    else if 2 ^ 64 - 1 < s.count.toNat + nb.toNat then raise .ovf s
    else runAccepted (absorbLatency s.lat nb.toNat (absorbCompressions nb.toNat s)) (.absorb nb)
      (absorbEffect nb.toNat) s)

/-- FINALIZE (42_finalize.md R80). -/
def execFinalize (s : State) : Host.Outcome State Fault Refusal :=
  .next (
    if s.busy then raise .busy s
    else if s.lc ≠ .active then raise .seq s
    else runAccepted (finalizeLatency s.lat (finalizeCompressions s)) .finalize finalizeEffect s)

end Sys2Proof.Machine
end

