-- ==== Sys2Proof/Machine/HostBus.lean ====
section
/-! DEFINITION. The host agent on the bus: a command word presented by a write to CMD (40_commands.md R56), register
writes (20_memory.md R34), and the host's statements (30_encoding.md R54). -/

namespace Sys2Proof.Machine

/-- `MemWrite(0x00, 4, cmd)` (40_commands.md R56). A busy engine discards the word unread (60_exceptions.md R91); an
ILLEGAL word raises ERR_CMD (R88); a command is run. -/
def presentCommand (c : Word) (s : State) : Host.Outcome State Fault Refusal :=
  if s.busy then .next (raise .busy s)
  else
    match decode c with
    | .illegal _ => .next (raise .cmd s)
    | .command i => exec i s

/-- A bus write (20_memory.md R34): only CMD and DATA_IN have an effect. -/
def busWrite (r : Reg) (v : Word) (s : State) : Host.Outcome State Fault Refusal :=
  match r with
  | .cmd => presentCommand v s
  | .status => .next s
  | .dataIn => .next (writeDataIn v s)
  | .digest _ => .next s
  | .reserved => .next s

/-- One host statement (30_encoding.md R54). An access outside the contract is refused (20_memory.md R33). `POLL` reads
STATUS and stays while its bit 0 is 1. With nothing pending the host does nothing. -/
def hostTurn (s : State) : Host.Outcome State Fault Refusal :=
  match s.host.program with
  | [] => .next s
  | .wr a v :: rest =>
    if a.admitted then busWrite (regAt a.off) v (withProgram rest s) else .refused .accessOutsideContract
  | .rd a x :: rest =>
    if a.admitted then .next (bindVar x (busRead (regAt a.off) s) (withProgram rest s))
    else .refused .accessOutsideContract
  | .poll :: rest => if (busRead .status s)[0] then .next s else .next (withProgram rest s)
  | .expect x v :: rest => .next (checkExpect x v (withProgram rest s))

/-! ## The pseudo-instructions of 30_encoding.md R55 -/

/-- `WR REG, imm32`. -/
def wr (r : Reg) (v : Word) : Stmt := .wr (Access.ofReg r) v

/-- `INIT`. -/
def hostInit : List Stmt := [wr .cmd 0x00000001, .poll]

/-- `ABSORB nb, v`. -/
def hostAbsorb (nb : BitVec 3) (v : Word) : List Stmt :=
  [wr .dataIn v, wr .cmd (0x00000002 ||| (nb.setWidth 32 <<< 8)), .poll]

/-- `FINALIZE`. -/
def hostFinalize : List Stmt := [wr .cmd 0x00000003, .poll]

/-- `NOP`. -/
def hostNop : List Stmt := [wr .cmd 0x00000000]

/-- `ABSORBS "s"`: each full 4-byte group in order, then the rest with zero bytes after it. -/
def hostAbsorbs : List Byte → List Stmt
  | b0 :: b1 :: b2 :: b3 :: rest => hostAbsorb 4 (be32 b0 b1 b2 b3) ++ hostAbsorbs rest
  | [b0, b1, b2] => hostAbsorb 3 (be32 b0 b1 b2 0)
  | [b0, b1] => hostAbsorb 2 (be32 b0 b1 0 0)
  | [b0] => hostAbsorb 1 (be32 b0 0 0 0)
  | [] => []

/-- `READDIGEST d0..d7`. -/
def hostReadDigest (name : Fin 8 → String) : List Stmt :=
  (List.finRange 8).map fun k => .rd (Access.ofReg (.digest k)) (name k)

end Sys2Proof.Machine
end

