-- ==== Sys2Proof/Machine/Step.lean ====
section
/-! DEFINITION. One step of the machine: the turn's agent moves. -/

namespace Sys2Proof.Machine

/-- One step. The list of turns says who moves; when it is used up, the engine moves while a command runs and the host
otherwise, so a running command ends (70_reset_and_hazards.md R111, log entry 3). -/
def step (s : State) : Host.Outcome State Fault Refusal :=
  match s.turns with
  | .reset :: ts => .next (resetBlock (withTurns ts s))
  | .engine :: ts => .next (engineStep (withTurns ts s))
  | .host :: ts => hostTurn (withTurns ts s)
  | [] => if s.busy then .next (engineStep s) else hostTurn s

/-- The command word `w` as the host's very next access: a `WR CMD, w` at the head of its statements, and the host's
turn first (log entry 7). -/
def State.withFetchWord (s : State) (nbits w : Nat) : State :=
  { s with
    turns := .host :: s.turns
    host := { s.host with program := wr .cmd (BitVec.ofNat 32 (w % 2 ^ nbits)) :: s.host.program } }

end Sys2Proof.Machine
end

