-- ==== Sys2Proof/Safety.lean ====
section
/-! DEFINITION. The terms the claims use: an idle engine, the invariant of every step, what a claim may not depend on
(the dead state), a sequence of commands, and SHA-256 of a byte string as the source defines it, written without the
machine. -/

namespace Sys2Proof.Machine

/-! ## Idle engine and the invariant -/

/-- No command runs: BUSY = 0, SEQ at (IDLE, 0) (10_state.md R19, R21), and the latch at rest. -/
abbrev Idle (s : State) : Prop := s.busy = false ∧ s.seq = Seq.rest ∧ s.latch = Latch.rest

/-- The places of SEQ inside a COMPRESS (41_compression.md R77). -/
def inCompress (q : Seq) : Bool :=
  match q.phase with
  | .sched => decide (q.t = 0 ∨ 16 ≤ q.t.val)
  | .round => true
  | .feed => decide (q.t = 0)
  | .idle => false
  | .absorb => false
  | .pad => false

/-- `(PAD, t)` with t padding bytes placed: the zeros still missing to offset 56 fit in the index (42_finalize.md R82:
"the number of zero bytes is (55 - r) mod 64, which is 0 to 63"). -/
def padRoom (t : Fin 64) (off : Nat) : Bool :=
  decide (t = 0 ∨ (off ≠ 56 ∧ t.val + (120 - off) % 64 ≤ 64))

/-- Where an ABSORB nb may be. -/
def absorbPlace (nb : Nat) (s : State) : Bool :=
  (decide (s.seq.phase = .absorb) && decide (s.seq.t.val ≤ nb)) ||
  (inCompress s.seq && decide (offset s = 0) &&
    match s.latch.resume with
    | some q => decide (q.phase = .absorb ∧ 1 ≤ q.t.val ∧ q.t.val ≤ nb)
    | none => false)

/-- Where a FINALIZE may be. -/
def finalizePlace (s : State) : Bool :=
  (decide (s.seq.phase = .pad) && padRoom s.seq.t (offset s)) ||
  (inCompress s.seq &&
    match s.latch.resume with
    | some q => decide (q.phase = .pad ∧ q.t ≠ 0 ∧ offset s = 0) && padRoom q.t 0
    | none => decide (offset s = 56))

/-- Where a running command may be in SEQ (10_state.md R19). Only an ACTIVE engine runs ABSORB or FINALIZE
(60_exceptions.md R89), and NOP never runs (40_commands.md R60). -/
def runningPlace (s : State) : Bool :=
  match s.latch.op with
  | .nop => false
  | .init => decide (s.seq = ⟨.absorb, 0⟩)
  | .absorb nb => decide (nb.toNat ≤ 4 ∧ s.lc = .active) && absorbPlace nb.toNat s
  | .finalize => decide (s.lc = .active) && finalizePlace s

/-- The invariant of every step: with BUSY = 0 the engine is at rest, and with BUSY = 1 a command runs and SEQ stands at
a place that this command has. -/
def EngineInv (s : State) : Prop :=
  if s.busy then runningPlace s = true else s.seq = Seq.rest ∧ s.latch = Latch.rest

/-- Every latency 0: each command is one atomic step at its write (40_commands.md R56). -/
abbrev Atomic (s : State) : Prop := s.lat = Latency.zero

/-! ## What the host can see, and what nobody may depend on -/

/-- `MemRead(off, 4)` (00_scope.md R11). -/
def memRead (off : Nat) (s : State) : Word := busRead (regAt off) s

/-- The two states have the same interface state, parameters, inputs and captured operands: they may differ in H, COUNT,
BUF, W and a..h only. -/
def SameOutside (s t : State) : Prop :=
  { s with h := t.h, count := t.count, buf := t.buf, w := t.w, work := t.work } = t

/-- The two states, both idle, agree on everything a rule may still read: outside the message and transform state; on H,
COUNT and BUF[0 .. (COUNT mod 64) - 1] while a message is ACTIVE (10_state.md R16); on H while its digest is readable
(R26). -/
def SameLive (s t : State) : Prop :=
  Idle s ∧ Idle t ∧ SameOutside s t ∧
  (s.lc = .active → s.h = t.h ∧ s.count = t.count ∧ ∀ j : Fin 64, j.val < offset s → s.buf[j] = t.buf[j]) ∧
  (s.lc = .done → s.h = t.h)

/-! ## Command words presented one after another -/

/-- The host is the agent that moves next (log entry 3). -/
def hostMoves (s : State) : Bool :=
  match s.turns with
  | .host :: _ => true
  | .engine :: _ => false
  | .reset :: _ => false
  | [] => !s.busy

/-- The reset input is asserted next. -/
def resetMoves (s : State) : Bool :=
  match s.turns with
  | .reset :: _ => true
  | .host :: _ => false
  | .engine :: _ => false
  | [] => false

/-- The turns that remain after the next step. -/
def laterTurns (s : State) : List Turn := s.turns.tail

/-- The host's next access is a write of the word `c` to CMD (40_commands.md R56). -/
def HostPresents (c : Word) (s : State) : Prop :=
  hostMoves s = true ∧ ∃ rest, s.host.program = wr .cmd c :: rest

/-- The step is one of the command `i`: an engine step while it runs (`latch.op`, log entry 6), or the write of its word
with BUSY = 0 (40_commands.md R56). -/
def RunsCommand (i : Instr) (s : State) : Prop :=
  (s.busy = true ∧ hostMoves s = false ∧ resetMoves s = false ∧ s.latch.op = i) ∨
  (s.busy = false ∧ ∃ c, HostPresents c s ∧ decode c = .command i)

/-- For each pair (v, c) in order: `WR DATA_IN, v; WR CMD, c` (30_encoding.md R55). -/
def runWords : List (Word × Word) → State → Host.Outcome State Fault Refusal
  | [], s => .next s
  | (v, c) :: rest, s =>
    match presentCommand c (writeDataIn v s) with
    | .next s' => runWords rest s'
    | .fault r => .fault r
    | .refused r => .refused r

/-- The message bytes one such pair carries: those of a legal ABSORB, and none for any other word (40_commands.md R61). -/
def bytesOf (p : Word × Word) : List Byte :=
  match decode p.2 with
  | .command (.absorb nb) => (List.range nb.toNat).map fun k => p.1.extractLsb' (24 - 8 * k) 8
  | .command .nop => []
  | .command .init => []
  | .command .finalize => []
  | .illegal _ => []

/-- The concatenation of the bytes in order: `S = C1 ++ … ++ Cn` (40_commands.md R61). -/
def messageOf (ws : List (Word × Word)) : List Byte := ws.flatMap bytesOf

/-- No word of the list starts a message or ends one. -/
abbrev WithinMessage (ws : List (Word × Word)) : Prop :=
  (ws.all fun p => decide (decode p.2 ≠ .command .init ∧ decode p.2 ≠ .command .finalize)) = true

/-! ## SHA-256 of a byte string -/

/-- The padded message: the bytes, 0x80, zeros up to offset 56 of a block, and the 64-bit big-endian bit count
(42_finalize.md R81 to R84). -/
def padded (m : List Byte) : List Byte :=
  m ++ [0x80] ++ List.replicate ((119 - m.length % 64) % 64) 0x00 ++
    (List.range 8).map fun j => (BitVec.ofNat 64 (8 * m.length)).extractLsb' (56 - 8 * j) 8

/-- Block `j` of a byte string: 64 consecutive bytes. -/
def blockAt (m : List Byte) (j : Nat) : Block := Vector.ofFn fun i => m.getD (64 * j + i.val) 0

/-- The digest: the compression transform (compressHash, 41_compression.md R76) over the blocks of the padded message,
from the initial constants on. From 2^61 bytes on the length field is truncated, and this is not standard SHA-256 of the
message (42_finalize.md R81, 93_implementation_defined.md U5). -/
def sha256 (m : List Byte) : Hash :=
  (List.range ((padded m).length / 64)).foldl (fun h j => compressHash h (blockAt (padded m) j)) IV

end Sys2Proof.Machine
end

