-- ==== Sys2Proof/Certificates/Slice0/Obligations.lean ====
section
/-! DEFINITION. The statements for the provers. OBLIGATIONS.json lists them with their rules. -/

open Sys2Proof Sys2Proof.Machine

/-! ## The commands -/

/-- 40_commands.md R60: NOP is the word 0; it changes nothing in any lifecycle state and never sets BUSY; while BUSY = 1
it is rejected with ERR_BUSY like every other word. -/
def Obligations.NopCompletesWithoutEffect : Prop :=
  decode 0x00000000 = .command .nop ∧
  ∀ s : State,
    (s.busy = false → exec .nop s = .next s) ∧
    (s.busy = true → exec .nop s = .next { s with errBusy := true })

/-- 40_commands.md R57. With latency 0 the whole of INIT is the step of the write; otherwise its clearing happens at
acceptance, LC still shows the old value, and the engine then brings the rest. Everything not named is unchanged. While
BUSY = 1 the INIT is discarded and clears nothing. -/
def Obligations.InitLoadsTheInitialHash : Prop :=
  decode 0x00000001 = .command .init ∧
  ∀ s : State,
    (s.busy = true → exec .init s = .next { s with errBusy := true }) ∧
    (Idle s → ∃ done : State,
      done = { s with
        h := #v[0x6a09e667, 0xbb67ae85, 0x3c6ef372, 0xa54ff53a, 0x510e527f, 0x9b05688c, 0x1f83d9ab, 0x5be0cd19]
        count := 0, lc := .active, errCmd := false, errSeq := false, errOvf := false, errBusy := false } ∧
      (s.lat.init = 0 → exec .init s = .next done) ∧
      (s.lat.init ≠ 0 → ∃ t n, exec .init s = .next t ∧ t.busy = true ∧ t.lc = s.lc ∧
        t.errCmd = false ∧ t.errSeq = false ∧ t.errOvf = false ∧ t.errBusy = false ∧ engineRun n t = done))

/-- 40_commands.md R58: an accepted ABSORB of latency 0 absorbs the first nb bytes of DATA_IN, most significant first,
one after another, and changes nothing else (no flag, no error bit, not DATA_IN). -/
def Obligations.AbsorbTakesTheFirstBytes : Prop :=
  ∀ (s : State) (nb : BitVec 3), Idle s → s.lc = .active → nb.toNat ≤ 4 → s.count.toNat + nb.toNat ≤ 2 ^ 64 - 1 →
    absorbLatency s.lat nb.toNat (absorbCompressions nb.toNat s) = 0 →
    exec (.absorb nb) s = .next
      (((List.range nb.toNat).map fun k => s.dataIn.extractLsb' (24 - 8 * k) 8).foldl (fun u b => absorbByte b u) s)

/-- 42_finalize.md R80 to R85. With r = COUNT mod 64: the message bytes BUF[0..r-1], 0x80, zeros and the 64-bit bit count
of COUNT go through one compression when r is at most 55, and through two when it is 56 or more (the layouts of R84). LC
becomes DONE, BUF, W, a..h and COUNT are scrubbed, and nothing else changes. -/
def Obligations.FinalizePadsCompressesAndScrubs : Prop :=
  ∀ s : State, Idle s → s.lc = .active → finalizeLatency s.lat (finalizeCompressions s) = 0 →
    exec .finalize s = .next { s with
      h :=
        (let r := s.count.toNat % 64
         let bc : Nat → Byte := fun j => (BitVec.ofNat 64 (s.count.toNat * 8)).extractLsb' (63 - 8 * j - 7) 8
         let filled : Fin 64 → Byte := fun i => if i.val < r then s.buf[i] else if i.val = r then 0x80 else 0x00
         if r ≤ 55 then
           compressHash s.h (Vector.ofFn fun i => if i.val < 56 then filled i else bc (i.val - 56))
         else
           compressHash (compressHash s.h (Vector.ofFn filled))
             (Vector.ofFn fun i => if i.val < 56 then 0x00 else bc (i.val - 56)))
      lc := .done
      count := 0
      buf := Vector.replicate 64 0
      w := Vector.replicate 64 0
      work := ⟨0, 0, 0, 0, 0, 0, 0, 0⟩ }

/-- 40_commands.md R56: with a positive latency an accepted ABSORB or FINALIZE leaves the write with BUSY = 1, its
operands captured and SEQ out of IDLE, and with everything else as before. The places of SEQ and the latch that holds the
operands are the model's choice (log entries 5 and 6). -/
def Obligations.PositiveLatencyOnlyAccepts : Prop :=
  ∀ s : State, Idle s → s.lc = .active →
    (∀ nb : BitVec 3, nb.toNat ≤ 4 → s.count.toNat + nb.toNat ≤ 2 ^ 64 - 1 →
      absorbLatency s.lat nb.toNat (absorbCompressions nb.toNat s) ≠ 0 →
      exec (.absorb nb) s = .next { s with
        busy := true, seq := ⟨.absorb, 0⟩, latch := ⟨.absorb nb, s.dataIn, 0, none⟩ }) ∧
    (finalizeLatency s.lat (finalizeCompressions s) ≠ 0 →
      exec .finalize s = .next { s with busy := true, seq := ⟨.pad, 0⟩, latch := ⟨.finalize, 0, 0, none⟩ })

/-- 40_commands.md R56, 41_compression.md R77: from acceptance on, the engine's steps through SEQ end, BUSY is 1 until
they do, and they leave exactly the state that the command's rule gives as one atomic step. The places of SEQ behind the
bound 300 are the model's choice (log entry 5). -/
def Obligations.EngineStepsEqualTheAtomicEffect : Prop :=
  ∀ s : State, Idle s →
    (∃ n, n ≤ 300 ∧ engineRun n (accept .init s) = complete (initEffect (accept .init s)) ∧
      ∀ k < n, (engineRun k (accept .init s)).busy = true) ∧
    (∀ nb : BitVec 3, nb.toNat ≤ 4 → s.lc = .active →
      ∃ n, n ≤ 300 ∧ engineRun n (accept (.absorb nb) s) = complete (absorbEffect nb.toNat (accept (.absorb nb) s)) ∧
        ∀ k < n, (engineRun k (accept (.absorb nb) s)).busy = true) ∧
    (s.lc = .active →
      ∃ n, n ≤ 300 ∧ engineRun n (accept .finalize s) = complete (finalizeEffect (accept .finalize s)) ∧
        ∀ k < n, (engineRun k (accept .finalize s)).busy = true)

/-! ## The compression transform -/

/-- 41_compression.md R62: bit i of rotr(x, n) is bit (i + n) mod 32 of x, for 0 < n < 32. -/
def Obligations.RotrMovesEachBit : Prop :=
  ∀ (x : Word) (n i : Nat), 0 < n → n < 32 → i < 32 → (rotr x n).getLsbD i = x.getLsbD ((i + n) % 32)

/-- 41_compression.md R68, R69: bit by bit, Ch takes y where x is 1 and z where x is 0, and Maj is the majority. -/
def Obligations.ChAndMajBitByBit : Prop :=
  ∀ (x y z : Word) (i : Nat), i < 32 →
    (ch x y z).getLsbD i = (if x.getLsbD i then y.getLsbD i else z.getLsbD i) ∧
    ((maj x y z).getLsbD i = true ↔
      2 ≤ (x.getLsbD i).toNat + (y.getLsbD i).toNat + (z.getLsbD i).toNat)

/-- 41_compression.md R63 to R67: x >> n is floor(x / 2^n), and the four functions bit by bit. Bit i of a rotation by n is
bit (i + n) mod 32 of x, and bit i of a shift by n is bit i + n of x where there is one and 0 elsewhere. -/
def Obligations.SigmaFunctionsBitByBit : Prop :=
  (∀ (x : Word) (n : Nat), (x >>> n).toNat = x.toNat / 2 ^ n) ∧
  (∀ (x : Word) (i : Nat), i < 32 →
    (smallSigma0 x).getLsbD i =
      (x.getLsbD ((i + 7) % 32) ^^ x.getLsbD ((i + 18) % 32) ^^ (decide (i + 3 < 32) && x.getLsbD (i + 3))) ∧
    (smallSigma1 x).getLsbD i =
      (x.getLsbD ((i + 17) % 32) ^^ x.getLsbD ((i + 19) % 32) ^^ (decide (i + 10 < 32) && x.getLsbD (i + 10))) ∧
    (bigSigma0 x).getLsbD i =
      (x.getLsbD ((i + 2) % 32) ^^ x.getLsbD ((i + 13) % 32) ^^ x.getLsbD ((i + 22) % 32)) ∧
    (bigSigma1 x).getLsbD i =
      (x.getLsbD ((i + 6) % 32) ^^ x.getLsbD ((i + 11) % 32) ^^ x.getLsbD ((i + 25) % 32)))

/-- 41_compression.md R70: each K[i] is the integer part of cbrt(p_i) * 2^32 taken modulo 2^32, where p_i is the (i+1)-th
prime: with some integer part q of the root, q * 2^32 + K[i] is the floor of the cube root of p_i * 2^96. -/
def Obligations.RoundConstantsAreCubeRootFractions : Prop :=
  ∀ i : Fin 64, ∃ q : Fin 8, (q.val * 2 ^ 32 + (K i.val).toNat) ^ 3 ≤ Nat.nth Nat.Prime i.val * 2 ^ 96 ∧
    Nat.nth Nat.Prime i.val * 2 ^ 96 < (q.val * 2 ^ 32 + (K i.val).toNat + 1) ^ 3

/-- 41_compression.md R71, R72: whatever W held before, the schedule's first 16 words are the block's big-endian words,
and every later word is the sum of its four predecessors' terms, modulo 2^32. -/
def Obligations.ScheduleSatisfiesItsRecurrence : Prop :=
  ∀ (b : Block) (w : Schedule),
    (∀ j : Fin 16, (scheduleOf b w)[j.val] =
      b[4 * j.val] ++ b[4 * j.val + 1] ++ b[4 * j.val + 2] ++ b[4 * j.val + 3]) ∧
    (∀ t : Nat, (ht : 16 ≤ t ∧ t < 64) →
      (scheduleOf b w)[t] = smallSigma1 (scheduleOf b w)[t - 2] + (scheduleOf b w)[t - 7] +
        smallSigma0 (scheduleOf b w)[t - 15] + (scheduleOf b w)[t - 16])

/-- 41_compression.md R73, R74, R75: loading the working variables, one round, and the feed-forward. -/
def Obligations.RoundProcessorFollowsItsRules : Prop :=
  (∀ h : Hash, loadWork h = ⟨h[0], h[1], h[2], h[3], h[4], h[5], h[6], h[7]⟩) ∧
  (∀ (t : Nat) (ht : t < 64) (w : Schedule) (v : Work) (t1 t2 : Word),
    t1 = v.h + bigSigma1 v.e + ch v.e v.f v.g + K t + w[t] → t2 = bigSigma0 v.a + maj v.a v.b v.c →
    roundAt t w v = ⟨t1 + t2, v.a, v.b, v.c, v.d + t1, v.e, v.f, v.g⟩) ∧
  (∀ (h : Hash) (v : Work), feedForward h v =
    #v[h[0] + v.a, h[1] + v.b, h[2] + v.c, h[3] + v.d, h[4] + v.e, h[5] + v.f, h[6] + v.g, h[7] + v.h])

/-- 41_compression.md R76: COMPRESS is the block parse and the schedule expansion (scheduleOf), the loading of a..h, the
rounds 0 to 63 in order over that schedule, and the feed-forward. It writes W, a..h and H and nothing else. `w₀` stands
for anything W may have held: the outcome depends only on the old H and the 64 bytes of BUF, and compressHash, in whose
terms the statements on FINALIZE, on the chaining of blocks and on the digest speak, is the same composition. -/
def Obligations.CompressDependsOnHashAndBlockOnly : Prop :=
  ∀ (s : State) (w₀ : Schedule), ∃ w v,
    w = scheduleOf s.buf w₀ ∧
    v = (List.range 64).foldl (fun v t => roundAt t w v) (loadWork s.h) ∧
    compress s = { s with w := w, work := v, h := feedForward s.h v } ∧
    compressHash s.h s.buf = feedForward s.h v

/-- 41_compression.md R77: what the engine step at each place of a COMPRESS writes, and the place that follows. The place
after (FEED, 0) inside a command, latch.resume, is the model's own field (log entry 5), and so is the completion of
FINALIZE in its last one, which keeps the H of the feed-forward. For states that no run reaches (a command that makes no
compression, BUSY = 0) this is the model's choice (log entry 13). -/
def Obligations.EachPlaceOfCompressDoesItsRule : Prop :=
  ∀ s : State,
    (s.seq = ⟨.sched, 0⟩ → ∃ w : Schedule,
      engineStep s = { s with
        w := w, work := ⟨s.h[0], s.h[1], s.h[2], s.h[3], s.h[4], s.h[5], s.h[6], s.h[7]⟩, seq := ⟨.sched, 16⟩ } ∧
      (∀ j : Fin 16, w[j.val] =
        s.buf[4 * j.val] ++ s.buf[4 * j.val + 1] ++ s.buf[4 * j.val + 2] ++ s.buf[4 * j.val + 3]) ∧
      (∀ t : Nat, (ht : 16 ≤ t ∧ t < 64) → w[t] = s.w[t])) ∧
    (∀ t : Nat, (ht : 16 ≤ t ∧ t < 64) → s.seq = ⟨.sched, t, ht.2⟩ →
      engineStep s = { s with
        w := s.w.set t (smallSigma1 s.w[t - 2] + s.w[t - 7] + smallSigma0 s.w[t - 15] + s.w[t - 16])
        seq := if h : t + 1 < 64 then ⟨.sched, t + 1, h⟩ else ⟨.round, 0⟩ }) ∧
    (∀ t : Nat, (ht : t < 64) → s.seq = ⟨.round, t, ht⟩ →
      engineStep s = { s with
        work := roundAt t s.w s.work
        seq := if h : t + 1 < 64 then ⟨.round, t + 1, h⟩ else ⟨.feed, 0⟩ }) ∧
    (s.seq = ⟨.feed, 0⟩ →
      (engineStep s).h = feedForward s.h s.work ∧
      ∀ q, s.latch.resume = some q → engineStep s = { s with
        h := feedForward s.h s.work, seq := q, latch := { s.latch with resume := none } })

/-- 41_compression.md R77, R78: from (SCHED, 0), 114 engine steps (1 + 48 + 64 + 1) are one COMPRESS, after which the
command goes on where it was. That place, latch.resume, is the model's own field (log entry 5). For states that no run
reaches (another command, BUSY = 0) this is the model's choice (log entry 13). -/
def Obligations.CompressIs114EngineSteps : Prop :=
  ∀ (s : State) (q : Seq), s.seq = ⟨.sched, 0⟩ → s.latch.resume = some q →
    engineRun 114 s = { compress s with seq := q, latch := { s.latch with resume := none } }

/-! ## The message path -/

/-- 40_commands.md R59: absorb_byte writes BUF[COUNT mod 64], adds 1 to COUNT modulo 2^64, and runs one compression on
the full buffer exactly when the offset wraps to 0. It changes nothing else but what COMPRESS writes, and it does not
clear BUF. -/
def Obligations.AbsorbByteRule : Prop :=
  ∀ (b : Byte) (s : State), ∃ placed : State,
    placed = { s with
      buf := Vector.ofFn fun i => if i.val = s.count.toNat % 64 then b else s.buf[i]
      count := BitVec.ofNat 64 (s.count.toNat + 1) } ∧
    (placed.count.toNat % 64 ≠ 0 → absorbByte b s = placed) ∧
    (placed.count.toNat % 64 = 0 → absorbByte b s = compress placed ∧ (absorbByte b s).buf = placed.buf)

/-- 42_finalize.md R82: after the 0x80 byte, FINALIZE appends exactly (55 - r) mod 64 zero bytes (at most 63), each
through absorb_byte, and the offset is then 56. COUNT advances modulo 2^64. -/
def Obligations.PaddingReachesOffset56 : Prop :=
  ∀ (s : State) (z : Nat), z = (119 - offset s) % 64 →
    z ≤ 63 ∧
    padZeros 64 (absorbByte 0x80 s) = absorbBytes (List.replicate z 0x00) (absorbByte 0x80 s) ∧
    offset (padZeros 64 (absorbByte 0x80 s)) = 56 ∧
    (padZeros 64 (absorbByte 0x80 s)).count = s.count + 1 + BitVec.ofNat 64 z

/-- 42_finalize.md R81: the bit count is COUNT * 8 modulo 2^64, that is COUNT[60:0] followed by three zeros. FINALIZE
takes it from the COUNT before any padding byte is absorbed, writes that value as the length field, and flags no
truncation. -/
def Obligations.BitCountTruncatesAt64Bits : Prop :=
  (∀ c : Long, (bitCount c).toNat = c.toNat * 8 % 2 ^ 64 ∧ bitCount c = c.extractLsb' 0 61 ++ (0 : BitVec 3)) ∧
  (∀ s : State,
    finalizeEffect s = consume (compress (writeLength (bitCount s.count) (padZeros 64 (absorbByte 0x80 s)))) ∧
    ∀ e, (finalizeEffect s).err e = s.err e)

/-- The engine's first step of a FINALIZE, at (PAD, 0), takes the bit count into latch.bc before its 0x80 byte moves COUNT
(42_finalize.md §2, step 1). The place is the model's choice (log entry 5), and so are the latch (log entry 6)
and the step in states that no run reaches, with BUSY = 0 or LC not ACTIVE (log entry 13). -/
def Obligations.EngineTakesTheBitCountFirst : Prop :=
  ∀ s : State, s.seq = ⟨.pad, 0⟩ → s.latch.op = .finalize →
    (engineStep s).latch.bc = bitCount s.count ∧ (engineStep s).count = s.count + 1

/-- 42_finalize.md R83: the eight length bytes go big-endian into BUF[56..63] by direct writes: no other byte of BUF and
no other state changes, COUNT does not advance and no compression runs. -/
def Obligations.LengthFieldIsWrittenDirectly : Prop :=
  ∀ (bc : Long) (s : State), ∃ b : Block, writeLength bc s = { s with buf := b } ∧
    (∀ j : Fin 8, b[56 + j.val] = bc.extractLsb' (56 - 8 * j.val) 8) ∧
    (∀ i : Fin 56, b[i.val] = s.buf[i.val])

/-- 10_state.md R30, R16: from a block boundary on, H is chained by exactly one compression for each 64 bytes absorbed, in
order, and BUF holds the bytes since the last one. -/
def Obligations.OneCompressionPer64Bytes : Prop :=
  ∀ (s : State) (m : List Byte), offset s = 0 →
    (absorbBytes m s).h = (List.range (m.length / 64)).foldl (fun h j => compressHash h (blockAt m j)) s.h ∧
    ∀ j : Fin 64, j.val < m.length % 64 →
      (absorbBytes m s).buf[j] = m.getD (64 * (m.length / 64) + j.val) 0

/-- 40_commands.md R61. Between INIT and FINALIZE, words that the engine takes one after another leave H, COUNT and BUF
as absorb_byte leaves them on the concatenated bytes of the accepted ABSORBs. Illegal words, NOPs and ABSORB 0 contribute
no bytes. Two sequences with the same bytes lead to the same digest. -/
def Obligations.StreamingEquivalence : Prop :=
  ∀ s : State, Idle s → Atomic s → s.lc = .active →
    (∀ ws : List (Word × Word), WithinMessage ws → s.count.toNat + (messageOf ws).length ≤ 2 ^ 64 - 1 →
      ∃ t, runWords ws s = .next t ∧ t.h = (absorbBytes (messageOf ws) s).h ∧
        t.count = (absorbBytes (messageOf ws) s).count ∧ t.buf = (absorbBytes (messageOf ws) s).buf ∧
        t.count.toNat = s.count.toNat + (messageOf ws).length) ∧
    (∀ ws ws' : List (Word × Word), WithinMessage ws → WithinMessage ws' → messageOf ws = messageOf ws' →
      s.count.toNat + (messageOf ws).length ≤ 2 ^ 64 - 1 →
      ∃ t t', runWords (ws ++ [(0, 0x00000003)]) s = .next t ∧ runWords (ws' ++ [(0, 0x00000003)]) s = .next t' ∧
        t.lc = .done ∧ t'.lc = .done ∧ t.h = t'.h)

/-- 00_scope.md R1, 42_finalize.md R80 to R86: INIT, any words within the message, and FINALIZE, from any idle state
(whatever H, COUNT, BUF, W and a..h hold), leave LC = DONE with DIGEST0..7 = `sha256` of the absorbed bytes. `sha256` is
written over the padded byte string and built on the model's compressHash (R76). Its length field is the bit length modulo
2^64, so from 2^61 bytes on this digest is not standard SHA-256 of the message (R81, 93_implementation_defined.md U5). -/
def Obligations.DigestIsSha256OfTheMessage : Prop :=
  ∀ (s : State) (ws : List (Word × Word)), Idle s → Atomic s → WithinMessage ws →
    (messageOf ws).length ≤ 2 ^ 64 - 1 →
    ∃ t, runWords ((0, 0x00000001) :: ws ++ [(0, 0x00000003)]) s = .next t ∧ t.lc = .done ∧ t.busy = false ∧
      ∀ k : Fin 8, memRead (0x10 + 4 * k.val) t = (sha256 (messageOf ws))[k]

/-- 30_encoding.md R55: the host statements of `ABSORBS m` bring the engine to the state that absorb_byte gives on the bytes
of m, and the engine is idle again. -/
def Obligations.AbsorbsStatementsDeliverTheBytes : Prop :=
  ∀ (s : State) (m : List Byte) (rest : List Stmt), Idle s → Atomic s → s.lc = .active → s.turns = [] →
    s.count.toNat + m.length ≤ 2 ^ 64 - 1 → s.host.program = hostAbsorbs m ++ rest →
    ∃ n t, Host.Core.run Sys2Proof.core n s = .next t ∧ t.host.program = rest ∧ Idle t ∧ t.lc = .active ∧
      t.h = (absorbBytes m s).h ∧ t.count = (absorbBytes m s).count ∧ t.buf = (absorbBytes m s).buf

/-- 30_encoding.md R51: the bits of DATA_IN beyond the NB bytes are ignored. -/
def Obligations.AbsorbIgnoresTheUnusedBytes : Prop :=
  ∀ (s : State) (nb : BitVec 3) (v : Word), Idle s → Atomic s → nb.toNat ≤ 4 →
    (∀ k < nb.toNat, v.extractLsb' (24 - 8 * k) 8 = s.dataIn.extractLsb' (24 - 8 * k) 8) →
    ∃ t, exec (.absorb nb) s = .next t ∧ exec (.absorb nb) { s with dataIn := v } = .next { t with dataIn := v }

/-! ## Errors -/

/-- 60_exceptions.md R92, 40_commands.md R56: the checks of a CMD write in their order; the first that holds is the only
error raised. `nb` is the word's NB field. -/
def Obligations.ErrorChecksInFixedOrder : Prop :=
  ∀ (c : Word) (s : State),
    (s.busy = true → presentCommand c s = .next { s with errBusy := true }) ∧
    (s.busy = false → (∀ i, decode c ≠ .command i) → presentCommand c s = .next { s with errCmd := true }) ∧
    (s.busy = false → s.lc ≠ .active → ((∃ nb, decode c = .command (.absorb nb)) ∨ decode c = .command .finalize) →
      presentCommand c s = .next { s with errSeq := true }) ∧
    (∀ nb, s.busy = false → s.lc = .active → decode c = .command (.absorb nb) →
      2 ^ 64 - 1 < s.count.toNat + nb.toNat →
      presentCommand c s = .next { s with errOvf := true, lc := .empty }) ∧
    (∀ i, s.busy = false → decode c = .command i →
      ((∃ nb, i = .absorb nb) ∨ i = .finalize → s.lc = .active) →
      (∀ nb, i = .absorb nb → s.count.toNat + nb.toNat ≤ 2 ^ 64 - 1) →
      ∃ t, presentCommand c s = .next t ∧
        ∀ e, t.err e = if i = .init then false else s.err e)

/-- 60_exceptions.md R88: with BUSY = 0 a word raises ERR_CMD exactly on the four grounds of the rule, and then only that
bit changes. -/
def Obligations.IllegalWordRaisesErrCmd : Prop :=
  ∀ c : Word,
    ((∃ why, decode c = .illegal why) ↔
      (c.extractLsb' 11 21 ≠ 0 ∨ c.extractLsb' 4 4 ≠ 0) ∨ 4 ≤ (c.extractLsb' 0 4).toNat ∨
      5 ≤ (c.extractLsb' 8 3).toNat ∨ (c.extractLsb' 8 3 ≠ 0 ∧ c.extractLsb' 0 4 ≠ 2)) ∧
    (∀ s : State, s.busy = false → (∃ why, decode c = .illegal why) →
      presentCommand c s = .next { s with errCmd := true })

/-- 60_exceptions.md R89: a legal ABSORB (any nb, 0 included) or FINALIZE with BUSY = 0 and LC not ACTIVE sets ERR_SEQ and
changes nothing else: the state, LC and every DIGEST read stay. -/
def Obligations.LifecycleViolationRaisesErrSeq : Prop :=
  ∀ s : State, s.busy = false → s.lc ≠ .active →
    (∀ nb : BitVec 3, nb.toNat ≤ 4 → exec (.absorb nb) s = .next { s with errSeq := true }) ∧
    exec .finalize s = .next { s with errSeq := true } ∧
    ∀ k : Fin 8, digestReg { s with errSeq := true } k = digestReg s k

/-- 60_exceptions.md R90: an ABSORB that would take the counter to 2^64 absorbs nothing, sets ERR_OVF and writes LC <-
EMPTY; after it ABSORB and FINALIZE raise ERR_SEQ, and INIT is accepted. FINALIZE raises no ERR_OVF at any COUNT. -/
def Obligations.CounterOverflowRaisesErrOvf : Prop :=
  (∀ (s : State) (nb : BitVec 3), s.busy = false → s.lc = .active → nb.toNat ≤ 4 →
    2 ^ 64 - 1 < s.count.toNat + nb.toNat →
    exec (.absorb nb) s = .next { s with errOvf := true, lc := .empty } ∧
    (∀ nb' : BitVec 3, nb'.toNat ≤ 4 → exec (.absorb nb') { s with errOvf := true, lc := .empty } =
      .next { s with errOvf := true, lc := .empty, errSeq := true }) ∧
    exec .finalize { s with errOvf := true, lc := .empty } =
      .next { s with errOvf := true, lc := .empty, errSeq := true } ∧
    ∃ t, exec .init { s with errOvf := true, lc := .empty } = .next t ∧ t.errOvf = false ∧
      (t.busy = true ∨ t.lc = .active)) ∧
  (∀ s t : State, exec .finalize s = .next t → t.errOvf = s.errOvf)

/-- 60_exceptions.md R91: any word written while BUSY = 1 is discarded and sets ERR_BUSY only; the running command goes
on as if it had not been written; no other error bit changes in a step taken while BUSY = 1 (a reset apart). -/
def Obligations.CommandWhileBusyIsDiscarded : Prop :=
  (∀ (c : Word) (s : State), s.busy = true → presentCommand c s = .next { s with errBusy := true }) ∧
  (∀ s : State, engineStep { s with errBusy := true } = { engineStep s with errBusy := true }) ∧
  (∀ s t : State, s.busy = true → resetMoves s = false → step s = .next t →
    t.errCmd = s.errCmd ∧ t.errSeq = s.errSeq ∧ t.errOvf = s.errOvf ∧ (s.errBusy = true → t.errBusy = true))

/-- 60_exceptions.md R91, 95_test_vectors.md §9: two command writes without POLL, FINALIZE then INIT. With a positive
latency both outcomes occur: (a) the INIT meets BUSY = 1, and in the end STATUS = 0x00000804; (b) the FINALIZE has
completed, the INIT is accepted, and in the end STATUS = 0x00000002. -/
def Obligations.BothBusyOutcomesOccur : Prop :=
  ∀ s : State, Idle s → s.lc = .active → (∀ e, s.err e = false) →
    finalizeLatency s.lat (finalizeCompressions s) ≠ 0 →
    (∃ ts n t, Host.Core.run Sys2Proof.core n
        { s with turns := ts, host := { s.host with program := [wr .cmd 0x00000003, wr .cmd 0x00000001] } } = .next t ∧
      t.host.program = [] ∧ status t = 0x00000804) ∧
    (∃ ts n t, Host.Core.run Sys2Proof.core n
        { s with turns := ts, host := { s.host with program := [wr .cmd 0x00000003, wr .cmd 0x00000001] } } = .next t ∧
      t.host.program = [] ∧ status t = 0x00000002)

/-- 60_exceptions.md R93: over every step, a set error bit stays set, except through the write of an INIT word with BUSY =
0 and through reset, which both clear all four. -/
def Obligations.ErrorBitsAreSticky : Prop :=
  ∀ s t : State, step s = .next t →
    (∀ e, s.err e = true → t.err e = true ∨ resetMoves s = true ∨
      (s.busy = false ∧ hostMoves s = true ∧ ∃ a c rest, s.host.program = .wr a c :: rest ∧ a.admitted = true ∧
        regAt a.off = .cmd ∧ decode c = .command .init)) ∧
    (resetMoves s = true → ∀ e, t.err e = false) ∧
    (s.busy = false → ∀ c, HostPresents c s → decode c = .command .init → ∀ e, t.err e = false)

/-- 60_exceptions.md R87: raising an error sets the bit of its cause code in STATUS and leaves H, COUNT, BUF, W, a..h,
DATA_IN and BUSY as they were, and LC too, except that ERR_OVF writes EMPTY. -/
def Obligations.RaisingAnErrorDiscardsTheCommand : Prop :=
  ∀ (e : Err) (s : State),
    (status (raise e s)).getLsbD e.code = true ∧
    (∀ e', e' ≠ e → (raise e s).err e' = s.err e') ∧
    (raise e s).h = s.h ∧ (raise e s).count = s.count ∧ (raise e s).buf = s.buf ∧ (raise e s).w = s.w ∧
    (raise e s).work = s.work ∧ (raise e s).dataIn = s.dataIn ∧ (raise e s).busy = s.busy ∧
    (raise e s).lc = if e = .ovf then .empty else s.lc

/-! ## Registers and bus -/

/-- 10_state.md R24: the layout of STATUS. -/
def Obligations.StatusLayout : Prop :=
  ∀ s : State,
    (status s).extractLsb' 0 1 = BitVec.ofBool s.busy ∧
    (status s).extractLsb' 1 2 = (match s.lc with | .empty => 0 | .active => 1 | .done => 2) ∧
    (status s).extractLsb' 3 5 = 0 ∧
    (status s).extractLsb' 8 1 = BitVec.ofBool s.errCmd ∧
    (status s).extractLsb' 9 1 = BitVec.ofBool s.errSeq ∧
    (status s).extractLsb' 10 1 = BitVec.ofBool s.errOvf ∧
    (status s).extractLsb' 11 1 = BitVec.ofBool s.errBusy ∧
    (status s).extractLsb' 12 20 = 0

/-- 20_memory.md R32, R34: what each offset of the register block reads, and what a write there does: only CMD and
DATA_IN have an effect. BASE is a multiple of 64, and bus addresses reach the offsets relative to it. -/
def Obligations.RegisterBlockMap : Prop :=
  (∀ s : State,
    memRead 0x00 s = 0 ∧ memRead 0x04 s = status s ∧ memRead 0x08 s = s.dataIn ∧ memRead 0x0C s = 0 ∧
    (∀ k : Fin 8, memRead (0x10 + 4 * k.val) s = if s.lc = .done ∧ s.busy = false then s.h[k] else 0) ∧
    (∀ j : Fin 4, memRead (0x30 + 4 * j.val) s = 0)) ∧
  (∀ (s : State) (v : Word),
    busWrite (regAt 0x00) v s = presentCommand v s ∧
    busWrite (regAt 0x08) v s = .next { s with dataIn := v } ∧
    (∀ off, off % 4 = 0 → off < 64 → off ≠ 0x00 → off ≠ 0x08 → busWrite (regAt off) v s = .next s)) ∧
  Config.base % 64 = 0 ∧ (∀ off, off < 64 → offsetOfAddress (busAddress off) = some off)

/-- 10_state.md R23: a write to DATA_IN replaces all 32 bits and nothing else, a read returns the last value written, ABSORB
takes it when it is accepted, and no command changes it. -/
def Obligations.DataInHoldsTheLastWrite : Prop :=
  (∀ (s : State) (v : Word), busWrite .dataIn v s = .next { s with dataIn := v } ∧
    memRead 0x08 { s with dataIn := v } = v) ∧
  (∀ (s : State) (nb : BitVec 3), (accept (.absorb nb) s).latch.din = s.dataIn) ∧
  (∀ (i : Instr) (s : State), ∃ t, exec i s = .next t ∧ t.dataIn = s.dataIn) ∧
  (∀ s : State, (engineStep s).dataIn = s.dataIn) ∧
  State.reset.dataIn = 0

/-- 20_memory.md R33: on the host's turn, an access is refused exactly when it is not 4 bytes wide at a 4-byte-aligned
offset in 0x00..0x3C. -/
def Obligations.AccessOutsideTheContractIsRefused : Prop :=
  ∀ (s : State) (off bytes : Nat) (rest : List Stmt), hostMoves s = true →
    (∀ v, s.host.program = .wr ⟨off, bytes⟩ v :: rest →
      (step s = .refused .accessOutsideContract ↔ ¬ (bytes = 4 ∧ off % 4 = 0 ∧ off ≤ 0x3C))) ∧
    (∀ x, s.host.program = .rd ⟨off, bytes⟩ x :: rest →
      (step s = .refused .accessOutsideContract ↔ ¬ (bytes = 4 ∧ off % 4 = 0 ∧ off ≤ 0x3C)))

/-- 20_memory.md R34: a read binds the host's variable to the register's value and changes nothing of the block. -/
def Obligations.ReadsHaveNoSideEffect : Prop :=
  ∀ (s : State) (off : Nat) (x : String) (rest : List Stmt), hostMoves s = true → off % 4 = 0 → off ≤ 0x3C →
    s.host.program = .rd ⟨off, 4⟩ x :: rest →
    step s = .next { s with
      turns := laterTurns s
      host := { s.host with program := rest, vars := (x, memRead off s) :: s.host.vars } }

/-- 10_state.md R28: what the host reads depends on the interface state only, and on H once LC = DONE: two states that
differ in H, COUNT, BUF, W, a..h and SEQ alone read the same at every offset (with the same H if DONE). -/
def Obligations.HostSeesTheInterfaceOnly : Prop :=
  ∀ (s t : State) (off : Nat), SameOutside { s with seq := t.seq, latch := t.latch } t → (s.lc = .done → s.h = t.h) →
    memRead off s = memRead off t

/-- 42_finalize.md R86: with LC = DONE and BUSY = 0 the digest bytes the host reads are D[4k + j] = H[k][31-8j : 24-8j]. -/
def Obligations.DigestBytesAreBigEndian : Prop :=
  ∀ (s : State) (k : Fin 8) (j : Fin 4), s.lc = .done → s.busy = false →
    digestByte s ⟨4 * k.val + j.val, by omega⟩ = s.h[k].extractLsb' (31 - 8 * j.val - 7) 8

/-- 70_reset_and_hazards.md R108, 20_memory.md R38(a): ABSORB captures DATA_IN when it is accepted, and a write to
DATA_IN while it runs does not change what the engine does. -/
def Obligations.DataInMayBeRewrittenAtOnce : Prop :=
  (∀ (s : State) (nb : BitVec 3), (accept (.absorb nb) s).latch.din = s.dataIn) ∧
  (∀ (s : State) (v : Word) (n : Nat), engineRun n { s with dataIn := v } = { engineRun n s with dataIn := v })

/-- 10_state.md R24, R26; 20_memory.md R38(b): a step that ends with BUSY = 1 (a reset apart, which ends with BUSY = 0)
shows LC as before it, DIGEST reads 0, and ERR_OVF has not moved. -/
def Obligations.BusyHidesTheRunningCommand : Prop :=
  ∀ s t : State, step s = .next t → t.busy = true →
    t.lc = s.lc ∧ (status t).extractLsb' 1 2 = (status s).extractLsb' 1 2 ∧ (∀ k, digestReg t k = 0) ∧
    (t.errOvf = true → s.errOvf = true)

/-! ## Decoding -/

/-- 30_encoding.md R48: exactly these eight words decode to a command; every other word is ILLEGAL. -/
def Obligations.ExactlyEightWordsAreCommands : Prop :=
  ∀ (c : Word) (i : Instr), decode c = .command i ↔
    (c, i) ∈ [((0x00000000 : Word), Instr.nop), (0x00000001, .init), (0x00000002, .absorb 0), (0x00000102, .absorb 1),
      (0x00000202, .absorb 2), (0x00000302, .absorb 3), (0x00000402, .absorb 4), (0x00000003, .finalize)]

/-- 30_encoding.md R45 to R48: decoding and encoding agree, both ways and for every word: a word decodes to a command
exactly when the command is well formed and the word is its encoding. That presenting the encoding is exec of the command
for NB = 5 to 7 too is the model's choice (log entry 9). -/
def Obligations.DecodeAndEncodeAgree : Prop :=
  (∀ i : Instr, WellFormed i → decode (encode i) = .command i) ∧
  (∀ (c : Word) (i : Instr), decode c = .command i → WellFormed i ∧ encode i = c) ∧
  (∀ (i : Instr) (s : State), presentCommand (encode i) s = exec i s)

/-- 30_encoding.md R45, R46, R53: some words written out from their fields RSV1, NB, RSV0, OP. -/
def Obligations.ListedWordsDecode : Prop :=
  decode 0b000000000000000000000_000_0000_0000 = .command .nop ∧
  decode 0b000000000000000000000_000_0000_0001 = .command .init ∧
  decode 0b000000000000000000000_011_0000_0010 = .command (.absorb 3) ∧
  decode 0b000000000000000000000_000_0000_0011 = .command .finalize ∧
  decode 0b000000000000000000000_101_0000_0010 = .illegal .countTooBig ∧
  decode 0b000000000000000000001_000_0000_0001 = .illegal .reservedBit

/-! ## The machine -/

/-- 40_commands.md R56: when the host's turn presents a command word and BUSY = 0, the step is `exec` of the decoded
command at the state in which that statement and that turn are used up; an illegal word and a busy engine give the error
of R56. Turns are the model's own (log entry 3). -/
def Obligations.StepRunsTheDecodedCommand : Prop :=
  ∀ (s : State) (c : Word) (rest : List Stmt), hostMoves s = true → s.host.program = wr .cmd c :: rest →
    (∀ i, s.busy = false → decode c = .command i →
      step s = exec i { s with turns := laterTurns s, host := { s.host with program := rest } }) ∧
    (∀ why, s.busy = false → decode c = .illegal why →
      step s = .next { s with turns := laterTurns s, host := { s.host with program := rest }, errCmd := true }) ∧
    (s.busy = true →
      step s = .next { s with turns := laterTurns s, host := { s.host with program := rest }, errBusy := true })

/-- The model's own `withFetchWord` (log entry 7) presents its word as the very next access. -/
def Obligations.FetchWordIsPresentedNext : Prop :=
  ∀ (s : State) (w : Nat), w < 2 ^ 32 → step (s.withFetchWord 32 w) = presentCommand (BitVec.ofNat 32 w) s

/-- 60_exceptions.md R87, R94: every command answers a next state, whatever the state; a step never faults, and it is
refused only for an access outside the contract on the host's turn. -/
def Obligations.OnlyBadAccessesStopTheMachine : Prop :=
  (∀ (i : Instr) (s : State), ∃ t, exec i s = .next t) ∧
  (∀ s : State, (∃ t, step s = .next t) ∨
    (step s = .refused .accessOutsideContract ∧ hostMoves s = true ∧
      ∃ a rest, a.admitted = false ∧ ((∃ v, s.host.program = .wr a v :: rest) ∨ ∃ x, s.host.program = .rd a x :: rest)))

/-- 10_state.md R19, R21: every step keeps the engine's invariant, and with it SEQ is IDLE exactly when BUSY = 0. The
places in SEQ that the invariant names are the model's choice (log entry 5). -/
def Obligations.StepKeepsTheEngineInvariant : Prop :=
  ∀ s t : State, EngineInv s → step s = .next t →
    EngineInv t ∧ (t.seq.phase = .idle ↔ t.busy = false)

/-- The invariant holds right after reset. -/
def Obligations.ResetMeetsTheEngineInvariant : Prop :=
  EngineInv State.reset

/-- 70_reset_and_hazards.md R111: from every state of the invariant with BUSY = 1, at most 300 engine steps bring BUSY
back to 0. The count is of model steps, not of cycles, and rests on the model's places in SEQ (log entry 5). -/
def Obligations.EveryRunningCommandEnds : Prop :=
  ∀ s : State, EngineInv s → s.busy = true → ∃ n, n ≤ 300 ∧ (engineRun n s).busy = false

/-- 70_reset_and_hazards.md R111, 30_encoding.md R54: a POLL ends, whatever turns are still to come. Turns are the
model's own (log entry 3). -/
def Obligations.PollEndsUnderEverySchedule : Prop :=
  ∀ (s : State) (rest : List Stmt), EngineInv s → s.host.program = .poll :: rest →
    ∃ n t, Host.Core.run Sys2Proof.core n s = .next t ∧ t.host.program = rest ∧ t.busy = false

/-- 70_reset_and_hazards.md R101, R102: a reset, whatever the block was doing, gives the interface state its values, and
the views follow. -/
def Obligations.ResetValues : Prop :=
  (∀ (s : State) (ts : List Turn), s.turns = .reset :: ts → ∃ t, step s = .next t ∧
    t.lc = .empty ∧ t.busy = false ∧ t.errCmd = false ∧ t.errSeq = false ∧ t.errOvf = false ∧ t.errBusy = false ∧
    t.dataIn = 0 ∧ t.seq = ⟨.idle, 0⟩ ∧ memRead 0x04 t = 0 ∧ ∀ k : Fin 8, memRead (0x10 + 4 * k.val) t = 0) ∧
  State.reset.lc = .empty ∧ State.reset.busy = false ∧ State.reset.errCmd = false ∧ State.reset.errSeq = false ∧
  State.reset.errOvf = false ∧ State.reset.errBusy = false ∧ State.reset.dataIn = 0 ∧
  State.reset.seq = ⟨.idle, 0⟩ ∧ status State.reset = 0 ∧ ∀ k : Fin 8, digestReg State.reset k = 0

/-- 70_reset_and_hazards.md R103: after a reset, INIT and NOP are accepted, ABSORB and FINALIZE raise ERR_SEQ, illegal words
raise ERR_CMD, and DIGESTk reads 0. -/
def Obligations.AfterResetTheBlockWaitsForInit : Prop :=
  ∀ s r : State, r = resetBlock s →
    (∃ t, exec .init r = .next t ∧ (t.busy = true ∨ t.lc = .active)) ∧
    exec .nop r = .next r ∧
    (∀ nb : BitVec 3, nb.toNat ≤ 4 → exec (.absorb nb) r = .next { r with errSeq := true }) ∧
    exec .finalize r = .next { r with errSeq := true } ∧
    (∀ c why, decode c = .illegal why → presentCommand c r = .next { r with errCmd := true }) ∧
    ∀ k, digestReg r k = 0

/-- 60_exceptions.md R100: an idle engine keeps all its state: an engine turn only passes, and with nothing pending a step
changes nothing. -/
def Obligations.IdleEngineKeepsItsState : Prop :=
  ∀ s : State, Idle s →
    (∀ ts, s.turns = .engine :: ts → step s = .next { s with turns := ts }) ∧
    (s.turns = [] → s.host.program = [] → step s = .next s)

/-- 10_state.md R20: how LC moves. In any step of the invariant, LC changes only to ACTIVE in a step of an INIT (H = IV,
COUNT = 0), from ACTIVE to DONE in a step of a FINALIZE (with the scrub), or to EMPTY, by a reset or, from ACTIVE, by the
ERR_OVF of a presented ABSORB, which leaves H, COUNT and BUF. Which command an engine step runs stands in the latch (log
entry 6), and who moves is log entry 3. -/
def Obligations.LifecycleMovesOnlyByItsRules : Prop :=
  ∀ s t : State, EngineInv s → step s = .next t → t.lc ≠ s.lc →
    (RunsCommand .init s ∧ t.lc = .active ∧ t.h = IV ∧ t.count = 0 ∧ t.busy = false) ∨
    (RunsCommand .finalize s ∧ s.lc = .active ∧ t.lc = .done ∧ t.busy = false ∧ t.count = 0 ∧
      t.buf = Vector.replicate 64 0 ∧ t.w = Vector.replicate 64 0 ∧ t.work = Work.zero) ∨
    (t.lc = .empty ∧ resetMoves s = true) ∨
    (t.lc = .empty ∧ s.lc = .active ∧ s.busy = false ∧ t.errOvf = true ∧
      (∃ c nb, HostPresents c s ∧ decode c = .command (.absorb nb) ∧ 2 ^ 64 - 1 < s.count.toNat + nb.toNat) ∧
      t.h = s.h ∧ t.count = s.count ∧ t.buf = s.buf)

/-- 10_state.md R16 to R18 (and so R101's "unspecified"): what no rule may read is never read. Two idle states that agree on
the live state go, by the same command of latency 0, to states that agree on the live state, and the host reads the same
in them. So no run depends on the values that log entry 1 gives H, COUNT, BUF, W and a..h at reset, nor on BUF beyond the
offset. -/
def Obligations.DeadStateIsNeverRead : Prop :=
  ∀ (s t : State) (i : Instr), SameLive s t → Atomic s →
    ∃ s' t', exec i s = .next s' ∧ exec i t = .next t' ∧ SameLive s' t' ∧ ∀ off, memRead off s' = memRead off t'

/-- 40_commands.md R56, 60_exceptions.md R87: no command touches DATA_IN, the parameters, the coming turns or the host's
own state; the engine's steps touch none of them either, and no error bit. -/
def Obligations.CommandsTouchOnlyTheBlock : Prop :=
  (∀ (i : Instr) (s : State), ∃ t, exec i s = .next t ∧
    t.dataIn = s.dataIn ∧ t.lat = s.lat ∧ t.turns = s.turns ∧ t.host = s.host) ∧
  (∀ s : State, (engineStep s).dataIn = s.dataIn ∧ (engineStep s).lat = s.lat ∧ (engineStep s).turns = s.turns ∧
    (engineStep s).host = s.host ∧ ∀ e, (engineStep s).err e = s.err e)
end

