-- ==== Sys2Proof/Laws/State.lean ====
section
/-! SUPPORT. One lemma for each field of State under each named update, true by rfl (raise and takeBitCount by cases), so
that no later proof unfolds a record update. -/

namespace Sys2Proof.Machine

/-! ### clearErrors -/

@[simp] theorem clearErrors_h (s : State) : (clearErrors s).h = s.h := rfl
@[simp] theorem clearErrors_count (s : State) : (clearErrors s).count = s.count := rfl
@[simp] theorem clearErrors_buf (s : State) : (clearErrors s).buf = s.buf := rfl
@[simp] theorem clearErrors_w (s : State) : (clearErrors s).w = s.w := rfl
@[simp] theorem clearErrors_work (s : State) : (clearErrors s).work = s.work := rfl
@[simp] theorem clearErrors_seq (s : State) : (clearErrors s).seq = s.seq := rfl
@[simp] theorem clearErrors_lc (s : State) : (clearErrors s).lc = s.lc := rfl
@[simp] theorem clearErrors_busy (s : State) : (clearErrors s).busy = s.busy := rfl
@[simp] theorem clearErrors_errCmd (s : State) : (clearErrors s).errCmd = false := rfl
@[simp] theorem clearErrors_errSeq (s : State) : (clearErrors s).errSeq = false := rfl
@[simp] theorem clearErrors_errOvf (s : State) : (clearErrors s).errOvf = false := rfl
@[simp] theorem clearErrors_errBusy (s : State) : (clearErrors s).errBusy = false := rfl
@[simp] theorem clearErrors_dataIn (s : State) : (clearErrors s).dataIn = s.dataIn := rfl
@[simp] theorem clearErrors_latch (s : State) : (clearErrors s).latch = s.latch := rfl
@[simp] theorem clearErrors_lat (s : State) : (clearErrors s).lat = s.lat := rfl
@[simp] theorem clearErrors_turns (s : State) : (clearErrors s).turns = s.turns := rfl
@[simp] theorem clearErrors_host (s : State) : (clearErrors s).host = s.host := rfl

/-! ### accept -/

@[simp] theorem accept_h (d : Instr) (s : State) : (accept d s).h = s.h := rfl
@[simp] theorem accept_count (d : Instr) (s : State) : (accept d s).count = s.count := rfl
@[simp] theorem accept_buf (d : Instr) (s : State) : (accept d s).buf = s.buf := rfl
@[simp] theorem accept_w (d : Instr) (s : State) : (accept d s).w = s.w := rfl
@[simp] theorem accept_work (d : Instr) (s : State) : (accept d s).work = s.work := rfl
@[simp] theorem accept_seq (d : Instr) (s : State) : (accept d s).seq = firstSeq d := rfl
@[simp] theorem accept_lc (d : Instr) (s : State) : (accept d s).lc = s.lc := rfl
@[simp] theorem accept_busy (d : Instr) (s : State) : (accept d s).busy = true := rfl
@[simp] theorem accept_errCmd (d : Instr) (s : State) : (accept d s).errCmd = s.errCmd := rfl
@[simp] theorem accept_errSeq (d : Instr) (s : State) : (accept d s).errSeq = s.errSeq := rfl
@[simp] theorem accept_errOvf (d : Instr) (s : State) : (accept d s).errOvf = s.errOvf := rfl
@[simp] theorem accept_errBusy (d : Instr) (s : State) : (accept d s).errBusy = s.errBusy := rfl
@[simp] theorem accept_dataIn (d : Instr) (s : State) : (accept d s).dataIn = s.dataIn := rfl
@[simp] theorem accept_latch (d : Instr) (s : State) : (accept d s).latch = ⟨d, capturedDin d s, 0, none⟩ := rfl
@[simp] theorem accept_lat (d : Instr) (s : State) : (accept d s).lat = s.lat := rfl
@[simp] theorem accept_turns (d : Instr) (s : State) : (accept d s).turns = s.turns := rfl
@[simp] theorem accept_host (d : Instr) (s : State) : (accept d s).host = s.host := rfl

/-! ### complete -/

@[simp] theorem complete_h (s : State) : (complete s).h = s.h := rfl
@[simp] theorem complete_count (s : State) : (complete s).count = s.count := rfl
@[simp] theorem complete_buf (s : State) : (complete s).buf = s.buf := rfl
@[simp] theorem complete_w (s : State) : (complete s).w = s.w := rfl
@[simp] theorem complete_work (s : State) : (complete s).work = s.work := rfl
@[simp] theorem complete_seq (s : State) : (complete s).seq = Seq.rest := rfl
@[simp] theorem complete_lc (s : State) : (complete s).lc = s.lc := rfl
@[simp] theorem complete_busy (s : State) : (complete s).busy = false := rfl
@[simp] theorem complete_errCmd (s : State) : (complete s).errCmd = s.errCmd := rfl
@[simp] theorem complete_errSeq (s : State) : (complete s).errSeq = s.errSeq := rfl
@[simp] theorem complete_errOvf (s : State) : (complete s).errOvf = s.errOvf := rfl
@[simp] theorem complete_errBusy (s : State) : (complete s).errBusy = s.errBusy := rfl
@[simp] theorem complete_dataIn (s : State) : (complete s).dataIn = s.dataIn := rfl
@[simp] theorem complete_latch (s : State) : (complete s).latch = Latch.rest := rfl
@[simp] theorem complete_lat (s : State) : (complete s).lat = s.lat := rfl
@[simp] theorem complete_turns (s : State) : (complete s).turns = s.turns := rfl
@[simp] theorem complete_host (s : State) : (complete s).host = s.host := rfl

/-! ### goto -/

@[simp] theorem goto_h (q : Seq) (s : State) : (goto q s).h = s.h := rfl
@[simp] theorem goto_count (q : Seq) (s : State) : (goto q s).count = s.count := rfl
@[simp] theorem goto_buf (q : Seq) (s : State) : (goto q s).buf = s.buf := rfl
@[simp] theorem goto_w (q : Seq) (s : State) : (goto q s).w = s.w := rfl
@[simp] theorem goto_work (q : Seq) (s : State) : (goto q s).work = s.work := rfl
@[simp] theorem goto_seq (q : Seq) (s : State) : (goto q s).seq = q := rfl
@[simp] theorem goto_lc (q : Seq) (s : State) : (goto q s).lc = s.lc := rfl
@[simp] theorem goto_busy (q : Seq) (s : State) : (goto q s).busy = s.busy := rfl
@[simp] theorem goto_errCmd (q : Seq) (s : State) : (goto q s).errCmd = s.errCmd := rfl
@[simp] theorem goto_errSeq (q : Seq) (s : State) : (goto q s).errSeq = s.errSeq := rfl
@[simp] theorem goto_errOvf (q : Seq) (s : State) : (goto q s).errOvf = s.errOvf := rfl
@[simp] theorem goto_errBusy (q : Seq) (s : State) : (goto q s).errBusy = s.errBusy := rfl
@[simp] theorem goto_dataIn (q : Seq) (s : State) : (goto q s).dataIn = s.dataIn := rfl
@[simp] theorem goto_latch (q : Seq) (s : State) : (goto q s).latch = s.latch := rfl
@[simp] theorem goto_lat (q : Seq) (s : State) : (goto q s).lat = s.lat := rfl
@[simp] theorem goto_turns (q : Seq) (s : State) : (goto q s).turns = s.turns := rfl
@[simp] theorem goto_host (q : Seq) (s : State) : (goto q s).host = s.host := rfl

/-! ### writeDataIn -/

@[simp] theorem writeDataIn_h (v : Word) (s : State) : (writeDataIn v s).h = s.h := rfl
@[simp] theorem writeDataIn_count (v : Word) (s : State) : (writeDataIn v s).count = s.count := rfl
@[simp] theorem writeDataIn_buf (v : Word) (s : State) : (writeDataIn v s).buf = s.buf := rfl
@[simp] theorem writeDataIn_w (v : Word) (s : State) : (writeDataIn v s).w = s.w := rfl
@[simp] theorem writeDataIn_work (v : Word) (s : State) : (writeDataIn v s).work = s.work := rfl
@[simp] theorem writeDataIn_seq (v : Word) (s : State) : (writeDataIn v s).seq = s.seq := rfl
@[simp] theorem writeDataIn_lc (v : Word) (s : State) : (writeDataIn v s).lc = s.lc := rfl
@[simp] theorem writeDataIn_busy (v : Word) (s : State) : (writeDataIn v s).busy = s.busy := rfl
@[simp] theorem writeDataIn_errCmd (v : Word) (s : State) : (writeDataIn v s).errCmd = s.errCmd := rfl
@[simp] theorem writeDataIn_errSeq (v : Word) (s : State) : (writeDataIn v s).errSeq = s.errSeq := rfl
@[simp] theorem writeDataIn_errOvf (v : Word) (s : State) : (writeDataIn v s).errOvf = s.errOvf := rfl
@[simp] theorem writeDataIn_errBusy (v : Word) (s : State) : (writeDataIn v s).errBusy = s.errBusy := rfl
@[simp] theorem writeDataIn_dataIn (v : Word) (s : State) : (writeDataIn v s).dataIn = v := rfl
@[simp] theorem writeDataIn_latch (v : Word) (s : State) : (writeDataIn v s).latch = s.latch := rfl
@[simp] theorem writeDataIn_lat (v : Word) (s : State) : (writeDataIn v s).lat = s.lat := rfl
@[simp] theorem writeDataIn_turns (v : Word) (s : State) : (writeDataIn v s).turns = s.turns := rfl
@[simp] theorem writeDataIn_host (v : Word) (s : State) : (writeDataIn v s).host = s.host := rfl

/-! ### withProgram -/

@[simp] theorem withProgram_h (p : List Stmt) (s : State) : (withProgram p s).h = s.h := rfl
@[simp] theorem withProgram_count (p : List Stmt) (s : State) : (withProgram p s).count = s.count := rfl
@[simp] theorem withProgram_buf (p : List Stmt) (s : State) : (withProgram p s).buf = s.buf := rfl
@[simp] theorem withProgram_w (p : List Stmt) (s : State) : (withProgram p s).w = s.w := rfl
@[simp] theorem withProgram_work (p : List Stmt) (s : State) : (withProgram p s).work = s.work := rfl
@[simp] theorem withProgram_seq (p : List Stmt) (s : State) : (withProgram p s).seq = s.seq := rfl
@[simp] theorem withProgram_lc (p : List Stmt) (s : State) : (withProgram p s).lc = s.lc := rfl
@[simp] theorem withProgram_busy (p : List Stmt) (s : State) : (withProgram p s).busy = s.busy := rfl
@[simp] theorem withProgram_errCmd (p : List Stmt) (s : State) : (withProgram p s).errCmd = s.errCmd := rfl
@[simp] theorem withProgram_errSeq (p : List Stmt) (s : State) : (withProgram p s).errSeq = s.errSeq := rfl
@[simp] theorem withProgram_errOvf (p : List Stmt) (s : State) : (withProgram p s).errOvf = s.errOvf := rfl
@[simp] theorem withProgram_errBusy (p : List Stmt) (s : State) : (withProgram p s).errBusy = s.errBusy := rfl
@[simp] theorem withProgram_dataIn (p : List Stmt) (s : State) : (withProgram p s).dataIn = s.dataIn := rfl
@[simp] theorem withProgram_latch (p : List Stmt) (s : State) : (withProgram p s).latch = s.latch := rfl
@[simp] theorem withProgram_lat (p : List Stmt) (s : State) : (withProgram p s).lat = s.lat := rfl
@[simp] theorem withProgram_turns (p : List Stmt) (s : State) : (withProgram p s).turns = s.turns := rfl
@[simp] theorem withProgram_host (p : List Stmt) (s : State) : (withProgram p s).host = { s.host with program := p } := rfl

/-! ### bindVar -/

@[simp] theorem bindVar_h (x : String) (v : Word) (s : State) : (bindVar x v s).h = s.h := rfl
@[simp] theorem bindVar_count (x : String) (v : Word) (s : State) : (bindVar x v s).count = s.count := rfl
@[simp] theorem bindVar_buf (x : String) (v : Word) (s : State) : (bindVar x v s).buf = s.buf := rfl
@[simp] theorem bindVar_w (x : String) (v : Word) (s : State) : (bindVar x v s).w = s.w := rfl
@[simp] theorem bindVar_work (x : String) (v : Word) (s : State) : (bindVar x v s).work = s.work := rfl
@[simp] theorem bindVar_seq (x : String) (v : Word) (s : State) : (bindVar x v s).seq = s.seq := rfl
@[simp] theorem bindVar_lc (x : String) (v : Word) (s : State) : (bindVar x v s).lc = s.lc := rfl
@[simp] theorem bindVar_busy (x : String) (v : Word) (s : State) : (bindVar x v s).busy = s.busy := rfl
@[simp] theorem bindVar_errCmd (x : String) (v : Word) (s : State) : (bindVar x v s).errCmd = s.errCmd := rfl
@[simp] theorem bindVar_errSeq (x : String) (v : Word) (s : State) : (bindVar x v s).errSeq = s.errSeq := rfl
@[simp] theorem bindVar_errOvf (x : String) (v : Word) (s : State) : (bindVar x v s).errOvf = s.errOvf := rfl
@[simp] theorem bindVar_errBusy (x : String) (v : Word) (s : State) : (bindVar x v s).errBusy = s.errBusy := rfl
@[simp] theorem bindVar_dataIn (x : String) (v : Word) (s : State) : (bindVar x v s).dataIn = s.dataIn := rfl
@[simp] theorem bindVar_latch (x : String) (v : Word) (s : State) : (bindVar x v s).latch = s.latch := rfl
@[simp] theorem bindVar_lat (x : String) (v : Word) (s : State) : (bindVar x v s).lat = s.lat := rfl
@[simp] theorem bindVar_turns (x : String) (v : Word) (s : State) : (bindVar x v s).turns = s.turns := rfl
@[simp] theorem bindVar_host (x : String) (v : Word) (s : State) : (bindVar x v s).host = { s.host with vars := (x, v) :: s.host.vars } := rfl

/-! ### checkExpect -/

@[simp] theorem checkExpect_h (x : String) (v : Word) (s : State) : (checkExpect x v s).h = s.h := rfl
@[simp] theorem checkExpect_count (x : String) (v : Word) (s : State) : (checkExpect x v s).count = s.count := rfl
@[simp] theorem checkExpect_buf (x : String) (v : Word) (s : State) : (checkExpect x v s).buf = s.buf := rfl
@[simp] theorem checkExpect_w (x : String) (v : Word) (s : State) : (checkExpect x v s).w = s.w := rfl
@[simp] theorem checkExpect_work (x : String) (v : Word) (s : State) : (checkExpect x v s).work = s.work := rfl
@[simp] theorem checkExpect_seq (x : String) (v : Word) (s : State) : (checkExpect x v s).seq = s.seq := rfl
@[simp] theorem checkExpect_lc (x : String) (v : Word) (s : State) : (checkExpect x v s).lc = s.lc := rfl
@[simp] theorem checkExpect_busy (x : String) (v : Word) (s : State) : (checkExpect x v s).busy = s.busy := rfl
@[simp] theorem checkExpect_errCmd (x : String) (v : Word) (s : State) : (checkExpect x v s).errCmd = s.errCmd := rfl
@[simp] theorem checkExpect_errSeq (x : String) (v : Word) (s : State) : (checkExpect x v s).errSeq = s.errSeq := rfl
@[simp] theorem checkExpect_errOvf (x : String) (v : Word) (s : State) : (checkExpect x v s).errOvf = s.errOvf := rfl
@[simp] theorem checkExpect_errBusy (x : String) (v : Word) (s : State) : (checkExpect x v s).errBusy = s.errBusy := rfl
@[simp] theorem checkExpect_dataIn (x : String) (v : Word) (s : State) : (checkExpect x v s).dataIn = s.dataIn := rfl
@[simp] theorem checkExpect_latch (x : String) (v : Word) (s : State) : (checkExpect x v s).latch = s.latch := rfl
@[simp] theorem checkExpect_lat (x : String) (v : Word) (s : State) : (checkExpect x v s).lat = s.lat := rfl
@[simp] theorem checkExpect_turns (x : String) (v : Word) (s : State) : (checkExpect x v s).turns = s.turns := rfl

/-! ### withTurns -/

@[simp] theorem withTurns_h (ts : List Turn) (s : State) : (withTurns ts s).h = s.h := rfl
@[simp] theorem withTurns_count (ts : List Turn) (s : State) : (withTurns ts s).count = s.count := rfl
@[simp] theorem withTurns_buf (ts : List Turn) (s : State) : (withTurns ts s).buf = s.buf := rfl
@[simp] theorem withTurns_w (ts : List Turn) (s : State) : (withTurns ts s).w = s.w := rfl
@[simp] theorem withTurns_work (ts : List Turn) (s : State) : (withTurns ts s).work = s.work := rfl
@[simp] theorem withTurns_seq (ts : List Turn) (s : State) : (withTurns ts s).seq = s.seq := rfl
@[simp] theorem withTurns_lc (ts : List Turn) (s : State) : (withTurns ts s).lc = s.lc := rfl
@[simp] theorem withTurns_busy (ts : List Turn) (s : State) : (withTurns ts s).busy = s.busy := rfl
@[simp] theorem withTurns_errCmd (ts : List Turn) (s : State) : (withTurns ts s).errCmd = s.errCmd := rfl
@[simp] theorem withTurns_errSeq (ts : List Turn) (s : State) : (withTurns ts s).errSeq = s.errSeq := rfl
@[simp] theorem withTurns_errOvf (ts : List Turn) (s : State) : (withTurns ts s).errOvf = s.errOvf := rfl
@[simp] theorem withTurns_errBusy (ts : List Turn) (s : State) : (withTurns ts s).errBusy = s.errBusy := rfl
@[simp] theorem withTurns_dataIn (ts : List Turn) (s : State) : (withTurns ts s).dataIn = s.dataIn := rfl
@[simp] theorem withTurns_latch (ts : List Turn) (s : State) : (withTurns ts s).latch = s.latch := rfl
@[simp] theorem withTurns_lat (ts : List Turn) (s : State) : (withTurns ts s).lat = s.lat := rfl
@[simp] theorem withTurns_turns (ts : List Turn) (s : State) : (withTurns ts s).turns = ts := rfl
@[simp] theorem withTurns_host (ts : List Turn) (s : State) : (withTurns ts s).host = s.host := rfl

/-! ### resetBlock -/

@[simp] theorem resetBlock_h (s : State) : (resetBlock s).h = State.reset.h := rfl
@[simp] theorem resetBlock_count (s : State) : (resetBlock s).count = 0 := rfl
@[simp] theorem resetBlock_buf (s : State) : (resetBlock s).buf = State.reset.buf := rfl
@[simp] theorem resetBlock_w (s : State) : (resetBlock s).w = State.reset.w := rfl
@[simp] theorem resetBlock_work (s : State) : (resetBlock s).work = Work.zero := rfl
@[simp] theorem resetBlock_seq (s : State) : (resetBlock s).seq = Seq.rest := rfl
@[simp] theorem resetBlock_lc (s : State) : (resetBlock s).lc = .empty := rfl
@[simp] theorem resetBlock_busy (s : State) : (resetBlock s).busy = false := rfl
@[simp] theorem resetBlock_errCmd (s : State) : (resetBlock s).errCmd = false := rfl
@[simp] theorem resetBlock_errSeq (s : State) : (resetBlock s).errSeq = false := rfl
@[simp] theorem resetBlock_errOvf (s : State) : (resetBlock s).errOvf = false := rfl
@[simp] theorem resetBlock_errBusy (s : State) : (resetBlock s).errBusy = false := rfl
@[simp] theorem resetBlock_dataIn (s : State) : (resetBlock s).dataIn = 0 := rfl
@[simp] theorem resetBlock_latch (s : State) : (resetBlock s).latch = Latch.rest := rfl
@[simp] theorem resetBlock_lat (s : State) : (resetBlock s).lat = s.lat := rfl
@[simp] theorem resetBlock_turns (s : State) : (resetBlock s).turns = s.turns := rfl
@[simp] theorem resetBlock_host (s : State) : (resetBlock s).host = s.host := rfl

/-! ### compress -/

@[simp] theorem compress_count (s : State) : (compress s).count = s.count := rfl
@[simp] theorem compress_buf (s : State) : (compress s).buf = s.buf := rfl
@[simp] theorem compress_w (s : State) : (compress s).w = scheduleOf s.buf s.w := rfl
@[simp] theorem compress_seq (s : State) : (compress s).seq = s.seq := rfl
@[simp] theorem compress_lc (s : State) : (compress s).lc = s.lc := rfl
@[simp] theorem compress_busy (s : State) : (compress s).busy = s.busy := rfl
@[simp] theorem compress_errCmd (s : State) : (compress s).errCmd = s.errCmd := rfl
@[simp] theorem compress_errSeq (s : State) : (compress s).errSeq = s.errSeq := rfl
@[simp] theorem compress_errOvf (s : State) : (compress s).errOvf = s.errOvf := rfl
@[simp] theorem compress_errBusy (s : State) : (compress s).errBusy = s.errBusy := rfl
@[simp] theorem compress_dataIn (s : State) : (compress s).dataIn = s.dataIn := rfl
@[simp] theorem compress_latch (s : State) : (compress s).latch = s.latch := rfl
@[simp] theorem compress_lat (s : State) : (compress s).lat = s.lat := rfl
@[simp] theorem compress_turns (s : State) : (compress s).turns = s.turns := rfl
@[simp] theorem compress_host (s : State) : (compress s).host = s.host := rfl

/-! ### placeByte -/

@[simp] theorem placeByte_h (b : Byte) (s : State) : (placeByte b s).h = s.h := rfl
@[simp] theorem placeByte_count (b : Byte) (s : State) : (placeByte b s).count = s.count + 1 := rfl
@[simp] theorem placeByte_w (b : Byte) (s : State) : (placeByte b s).w = s.w := rfl
@[simp] theorem placeByte_work (b : Byte) (s : State) : (placeByte b s).work = s.work := rfl
@[simp] theorem placeByte_seq (b : Byte) (s : State) : (placeByte b s).seq = s.seq := rfl
@[simp] theorem placeByte_lc (b : Byte) (s : State) : (placeByte b s).lc = s.lc := rfl
@[simp] theorem placeByte_busy (b : Byte) (s : State) : (placeByte b s).busy = s.busy := rfl
@[simp] theorem placeByte_errCmd (b : Byte) (s : State) : (placeByte b s).errCmd = s.errCmd := rfl
@[simp] theorem placeByte_errSeq (b : Byte) (s : State) : (placeByte b s).errSeq = s.errSeq := rfl
@[simp] theorem placeByte_errOvf (b : Byte) (s : State) : (placeByte b s).errOvf = s.errOvf := rfl
@[simp] theorem placeByte_errBusy (b : Byte) (s : State) : (placeByte b s).errBusy = s.errBusy := rfl
@[simp] theorem placeByte_dataIn (b : Byte) (s : State) : (placeByte b s).dataIn = s.dataIn := rfl
@[simp] theorem placeByte_latch (b : Byte) (s : State) : (placeByte b s).latch = s.latch := rfl
@[simp] theorem placeByte_lat (b : Byte) (s : State) : (placeByte b s).lat = s.lat := rfl
@[simp] theorem placeByte_turns (b : Byte) (s : State) : (placeByte b s).turns = s.turns := rfl
@[simp] theorem placeByte_host (b : Byte) (s : State) : (placeByte b s).host = s.host := rfl

/-! ### initEffect -/

@[simp] theorem initEffect_h (s : State) : (initEffect s).h = IV := rfl
@[simp] theorem initEffect_count (s : State) : (initEffect s).count = 0 := rfl
@[simp] theorem initEffect_buf (s : State) : (initEffect s).buf = s.buf := rfl
@[simp] theorem initEffect_w (s : State) : (initEffect s).w = s.w := rfl
@[simp] theorem initEffect_work (s : State) : (initEffect s).work = s.work := rfl
@[simp] theorem initEffect_seq (s : State) : (initEffect s).seq = s.seq := rfl
@[simp] theorem initEffect_lc (s : State) : (initEffect s).lc = .active := rfl
@[simp] theorem initEffect_busy (s : State) : (initEffect s).busy = s.busy := rfl
@[simp] theorem initEffect_errCmd (s : State) : (initEffect s).errCmd = s.errCmd := rfl
@[simp] theorem initEffect_errSeq (s : State) : (initEffect s).errSeq = s.errSeq := rfl
@[simp] theorem initEffect_errOvf (s : State) : (initEffect s).errOvf = s.errOvf := rfl
@[simp] theorem initEffect_errBusy (s : State) : (initEffect s).errBusy = s.errBusy := rfl
@[simp] theorem initEffect_dataIn (s : State) : (initEffect s).dataIn = s.dataIn := rfl
@[simp] theorem initEffect_latch (s : State) : (initEffect s).latch = s.latch := rfl
@[simp] theorem initEffect_lat (s : State) : (initEffect s).lat = s.lat := rfl
@[simp] theorem initEffect_turns (s : State) : (initEffect s).turns = s.turns := rfl
@[simp] theorem initEffect_host (s : State) : (initEffect s).host = s.host := rfl

/-! ### writeLength -/

@[simp] theorem writeLength_h (bc : Long) (s : State) : (writeLength bc s).h = s.h := rfl
@[simp] theorem writeLength_count (bc : Long) (s : State) : (writeLength bc s).count = s.count := rfl
@[simp] theorem writeLength_buf (bc : Long) (s : State) : (writeLength bc s).buf = lengthBlock bc s.buf := rfl
@[simp] theorem writeLength_w (bc : Long) (s : State) : (writeLength bc s).w = s.w := rfl
@[simp] theorem writeLength_work (bc : Long) (s : State) : (writeLength bc s).work = s.work := rfl
@[simp] theorem writeLength_seq (bc : Long) (s : State) : (writeLength bc s).seq = s.seq := rfl
@[simp] theorem writeLength_lc (bc : Long) (s : State) : (writeLength bc s).lc = s.lc := rfl
@[simp] theorem writeLength_busy (bc : Long) (s : State) : (writeLength bc s).busy = s.busy := rfl
@[simp] theorem writeLength_errCmd (bc : Long) (s : State) : (writeLength bc s).errCmd = s.errCmd := rfl
@[simp] theorem writeLength_errSeq (bc : Long) (s : State) : (writeLength bc s).errSeq = s.errSeq := rfl
@[simp] theorem writeLength_errOvf (bc : Long) (s : State) : (writeLength bc s).errOvf = s.errOvf := rfl
@[simp] theorem writeLength_errBusy (bc : Long) (s : State) : (writeLength bc s).errBusy = s.errBusy := rfl
@[simp] theorem writeLength_dataIn (bc : Long) (s : State) : (writeLength bc s).dataIn = s.dataIn := rfl
@[simp] theorem writeLength_latch (bc : Long) (s : State) : (writeLength bc s).latch = s.latch := rfl
@[simp] theorem writeLength_lat (bc : Long) (s : State) : (writeLength bc s).lat = s.lat := rfl
@[simp] theorem writeLength_turns (bc : Long) (s : State) : (writeLength bc s).turns = s.turns := rfl
@[simp] theorem writeLength_host (bc : Long) (s : State) : (writeLength bc s).host = s.host := rfl

/-! ### consume -/

@[simp] theorem consume_h (s : State) : (consume s).h = s.h := rfl
@[simp] theorem consume_count (s : State) : (consume s).count = 0 := rfl
@[simp] theorem consume_buf (s : State) : (consume s).buf = Vector.replicate 64 0 := rfl
@[simp] theorem consume_w (s : State) : (consume s).w = Vector.replicate 64 0 := rfl
@[simp] theorem consume_work (s : State) : (consume s).work = Work.zero := rfl
@[simp] theorem consume_seq (s : State) : (consume s).seq = s.seq := rfl
@[simp] theorem consume_lc (s : State) : (consume s).lc = .done := rfl
@[simp] theorem consume_busy (s : State) : (consume s).busy = s.busy := rfl
@[simp] theorem consume_errCmd (s : State) : (consume s).errCmd = s.errCmd := rfl
@[simp] theorem consume_errSeq (s : State) : (consume s).errSeq = s.errSeq := rfl
@[simp] theorem consume_errOvf (s : State) : (consume s).errOvf = s.errOvf := rfl
@[simp] theorem consume_errBusy (s : State) : (consume s).errBusy = s.errBusy := rfl
@[simp] theorem consume_dataIn (s : State) : (consume s).dataIn = s.dataIn := rfl
@[simp] theorem consume_latch (s : State) : (consume s).latch = s.latch := rfl
@[simp] theorem consume_lat (s : State) : (consume s).lat = s.lat := rfl
@[simp] theorem consume_turns (s : State) : (consume s).turns = s.turns := rfl
@[simp] theorem consume_host (s : State) : (consume s).host = s.host := rfl

/-! ### startCompress -/

@[simp] theorem startCompress_h (q : Option Seq) (s : State) : (startCompress q s).h = s.h := rfl
@[simp] theorem startCompress_count (q : Option Seq) (s : State) : (startCompress q s).count = s.count := rfl
@[simp] theorem startCompress_buf (q : Option Seq) (s : State) : (startCompress q s).buf = s.buf := rfl
@[simp] theorem startCompress_w (q : Option Seq) (s : State) : (startCompress q s).w = s.w := rfl
@[simp] theorem startCompress_work (q : Option Seq) (s : State) : (startCompress q s).work = s.work := rfl
@[simp] theorem startCompress_seq (q : Option Seq) (s : State) : (startCompress q s).seq = ⟨.sched, 0⟩ := rfl
@[simp] theorem startCompress_lc (q : Option Seq) (s : State) : (startCompress q s).lc = s.lc := rfl
@[simp] theorem startCompress_busy (q : Option Seq) (s : State) : (startCompress q s).busy = s.busy := rfl
@[simp] theorem startCompress_errCmd (q : Option Seq) (s : State) : (startCompress q s).errCmd = s.errCmd := rfl
@[simp] theorem startCompress_errSeq (q : Option Seq) (s : State) : (startCompress q s).errSeq = s.errSeq := rfl
@[simp] theorem startCompress_errOvf (q : Option Seq) (s : State) : (startCompress q s).errOvf = s.errOvf := rfl
@[simp] theorem startCompress_errBusy (q : Option Seq) (s : State) : (startCompress q s).errBusy = s.errBusy := rfl
@[simp] theorem startCompress_dataIn (q : Option Seq) (s : State) : (startCompress q s).dataIn = s.dataIn := rfl
@[simp] theorem startCompress_latch (q : Option Seq) (s : State) : (startCompress q s).latch = { s.latch with resume := q } := rfl
@[simp] theorem startCompress_lat (q : Option Seq) (s : State) : (startCompress q s).lat = s.lat := rfl
@[simp] theorem startCompress_turns (q : Option Seq) (s : State) : (startCompress q s).turns = s.turns := rfl
@[simp] theorem startCompress_host (q : Option Seq) (s : State) : (startCompress q s).host = s.host := rfl

/-! ### raise -/

@[simp] theorem raise_h (e : Err) (s : State) : (raise e s).h = s.h := by cases e <;> rfl
@[simp] theorem raise_count (e : Err) (s : State) : (raise e s).count = s.count := by cases e <;> rfl
@[simp] theorem raise_buf (e : Err) (s : State) : (raise e s).buf = s.buf := by cases e <;> rfl
@[simp] theorem raise_w (e : Err) (s : State) : (raise e s).w = s.w := by cases e <;> rfl
@[simp] theorem raise_work (e : Err) (s : State) : (raise e s).work = s.work := by cases e <;> rfl
@[simp] theorem raise_seq (e : Err) (s : State) : (raise e s).seq = s.seq := by cases e <;> rfl
@[simp] theorem raise_busy (e : Err) (s : State) : (raise e s).busy = s.busy := by cases e <;> rfl
@[simp] theorem raise_dataIn (e : Err) (s : State) : (raise e s).dataIn = s.dataIn := by cases e <;> rfl
@[simp] theorem raise_latch (e : Err) (s : State) : (raise e s).latch = s.latch := by cases e <;> rfl
@[simp] theorem raise_lat (e : Err) (s : State) : (raise e s).lat = s.lat := by cases e <;> rfl
@[simp] theorem raise_turns (e : Err) (s : State) : (raise e s).turns = s.turns := by cases e <;> rfl
@[simp] theorem raise_host (e : Err) (s : State) : (raise e s).host = s.host := by cases e <;> rfl

/-! ### takeBitCount -/

@[simp] theorem takeBitCount_h (s : State) : (takeBitCount s).h = s.h := by
  unfold takeBitCount; split <;> rfl
@[simp] theorem takeBitCount_count (s : State) : (takeBitCount s).count = s.count := by
  unfold takeBitCount; split <;> rfl
@[simp] theorem takeBitCount_buf (s : State) : (takeBitCount s).buf = s.buf := by
  unfold takeBitCount; split <;> rfl
@[simp] theorem takeBitCount_w (s : State) : (takeBitCount s).w = s.w := by
  unfold takeBitCount; split <;> rfl
@[simp] theorem takeBitCount_work (s : State) : (takeBitCount s).work = s.work := by
  unfold takeBitCount; split <;> rfl
@[simp] theorem takeBitCount_seq (s : State) : (takeBitCount s).seq = s.seq := by
  unfold takeBitCount; split <;> rfl
@[simp] theorem takeBitCount_lc (s : State) : (takeBitCount s).lc = s.lc := by
  unfold takeBitCount; split <;> rfl
@[simp] theorem takeBitCount_busy (s : State) : (takeBitCount s).busy = s.busy := by
  unfold takeBitCount; split <;> rfl
@[simp] theorem takeBitCount_errCmd (s : State) : (takeBitCount s).errCmd = s.errCmd := by
  unfold takeBitCount; split <;> rfl
@[simp] theorem takeBitCount_errSeq (s : State) : (takeBitCount s).errSeq = s.errSeq := by
  unfold takeBitCount; split <;> rfl
@[simp] theorem takeBitCount_errOvf (s : State) : (takeBitCount s).errOvf = s.errOvf := by
  unfold takeBitCount; split <;> rfl
@[simp] theorem takeBitCount_errBusy (s : State) : (takeBitCount s).errBusy = s.errBusy := by
  unfold takeBitCount; split <;> rfl
@[simp] theorem takeBitCount_dataIn (s : State) : (takeBitCount s).dataIn = s.dataIn := by
  unfold takeBitCount; split <;> rfl
@[simp] theorem takeBitCount_lat (s : State) : (takeBitCount s).lat = s.lat := by
  unfold takeBitCount; split <;> rfl
@[simp] theorem takeBitCount_turns (s : State) : (takeBitCount s).turns = s.turns := by
  unfold takeBitCount; split <;> rfl
@[simp] theorem takeBitCount_host (s : State) : (takeBitCount s).host = s.host := by
  unfold takeBitCount; split <;> rfl

end Sys2Proof.Machine
end

