-- ==== Sys2Proof/Laws/Compress.lean ====
section
/-! SUPPORT. The small lemmas of the message scheduler and of COMPRESS (41_compression.md R71 to R76). -/

namespace Sys2Proof.Machine

/-- W[0..15] come from the block (R71). -/
theorem parseBlock_getElem_lt (b : Block) (w : Schedule) (i : Nat) (h : i < 16) :
    (parseBlock b w)[i] = blockWord b ⟨i, h⟩ := by
  unfold parseBlock
  simp [h]

/-- W[16..63] are not written by the block parse (R71). -/
theorem parseBlock_getElem_ge (b : Block) (w : Schedule) (i : Nat) (h : 16 ≤ i) (h' : i < 64) :
    (parseBlock b w)[i] = w[i] := by
  unfold parseBlock
  simp [Nat.not_lt.mpr h]

/-- A schedule step writes W[t] only (R72). -/
theorem expandAt_getElem_of_ne (t i : Nat) (w : Schedule) (hi : i < 64) (h : i ≠ t) :
    (expandAt t w)[i] = w[i] := by
  unfold expandAt
  split
  · exact Vector.getElem_set_ne _ hi (Ne.symm h)
  · rfl

/-- What a schedule step writes (R72). -/
theorem expandAt_getElem_self (t : Nat) (w : Schedule) (h : 16 ≤ t ∧ t < 64) :
    (expandAt t w)[t] = smallSigma1 w[t - 2] + w[t - 7] + smallSigma0 w[t - 15] + w[t - 16] := by
  simp [expandAt, h]

/-- Steps from t on leave every word before t alone (R72: increasing order). -/
theorem expandFrom_getElem_of_lt (n t i : Nat) (w : Schedule) (hi : i < 64) (h : i < t) :
    (expandFrom n t w)[i] = w[i] := by
  induction n generalizing t w with
  | zero => rfl
  | succ n ih =>
    rw [expandFrom, ih (t + 1) _ (by omega), expandAt_getElem_of_ne t i w hi (by omega)]

@[simp] theorem expandFrom_succ (n t : Nat) (w : Schedule) :
    expandFrom (n + 1) t w = expandFrom n (t + 1) (expandAt t w) := rfl

@[simp] theorem roundsFrom_succ (n t : Nat) (w : Schedule) (v : Work) :
    roundsFrom (n + 1) t w v = roundsFrom n (t + 1) w (roundAt t w v) := rfl

/-- Steps from t on read no word at t or after it: they agree on what they write when the words before t agree (R72). -/
theorem expandFrom_getElem_congr (n t : Nat) (w w' : Schedule) (ht : 16 ≤ t)
    (h : ∀ i (_ : i < 64), i < t → w[i] = w'[i]) (i : Nat) (hi : i < 64) (hlt : i < t + n) :
    (expandFrom n t w)[i] = (expandFrom n t w')[i] := by
  induction n generalizing t w w' with
  | zero => exact h i hi hlt
  | succ n ih =>
    refine ih (t + 1) (expandAt t w) (expandAt t w') (by omega) (fun j hj hjt => ?_) (by omega)
    by_cases e : j = t
    · subst e
      rw [expandAt_getElem_self _ _ ⟨ht, hj⟩, expandAt_getElem_self _ _ ⟨ht, hj⟩, h (j - 2) (by omega) (by omega),
        h (j - 7) (by omega) (by omega), h (j - 15) (by omega) (by omega), h (j - 16) (by omega) (by omega)]
    · rw [expandAt_getElem_of_ne _ _ _ hj e, expandAt_getElem_of_ne _ _ _ hj e]
      exact h j hj (by omega)

/-- The schedule is the block parse and then 48 steps (R71, R72). -/
theorem scheduleOf_eq (b : Block) (w : Schedule) : scheduleOf b w = expandFrom 48 16 (parseBlock b w) := by
  unfold scheduleOf
  rfl

/-- The schedule does not depend on what W held before (R78: R71 writes W[0..15] before anything reads them). -/
theorem scheduleOf_congr (b : Block) (w w' : Schedule) : scheduleOf b w = scheduleOf b w' := by
  rw [scheduleOf_eq, scheduleOf_eq]
  generalize hn : 48 = n
  ext1 i hi
  refine expandFrom_getElem_congr n 16 _ _ le_rfl (fun j _ hj => ?_) i hi (by omega)
  rw [parseBlock_getElem_lt b w j hj, parseBlock_getElem_lt b w' j hj]

/-- Rounds in increasing order, as a fold over their indexes (R74, R76). -/
theorem roundsFrom_eq_foldl (n t : Nat) (w : Schedule) (v : Work) :
    roundsFrom n t w v = (List.range' t n).foldl (fun v t => roundAt t w v) v := by
  induction n generalizing t v with
  | zero => rfl
  | succ n ih => rw [roundsFrom_succ, ih, List.range'_succ, List.foldl_cons]

/-- The working variables go through 64 rounds on that schedule (R73, R74). -/
theorem finalWork_eq (h : Hash) (b : Block) (w : Schedule) :
    finalWork h b w = roundsFrom 64 0 (scheduleOf b w) (loadWork h) := by
  unfold finalWork
  rfl

/-- What COMPRESS leaves in a..h (R73, R74). -/
theorem compress_work (s : State) :
    (compress s).work = finalWork s.h s.buf s.w := rfl

/-- What COMPRESS leaves in H (R75). -/
theorem compress_h (s : State) : (compress s).h = feedForward s.h (compress s).work := rfl

end Sys2Proof.Machine
end

