-- ==== Sys2Proof/Laws/Message.lean ====
section
/-! SUPPORT. Everything the message path can do, said once: absorb_byte, the bytes of a command and the padding change H,
COUNT, BUF, W and a..h only. -/

namespace Sys2Proof.Machine

/-- `u` differs from `s` in the message and transform state only. -/
def OnlyMessageMoved (s u : State) : Prop :=
  u = { s with h := u.h, count := u.count, buf := u.buf, w := u.w, work := u.work }

theorem OnlyMessageMoved.refl (s : State) : OnlyMessageMoved s s := rfl

theorem OnlyMessageMoved.trans {s u v : State} (h : OnlyMessageMoved s u) (h' : OnlyMessageMoved u v) :
    OnlyMessageMoved s v := by
  unfold OnlyMessageMoved at *
  rw [h'.trans (by rw [h])]

/-- The two outcomes of absorb_byte (40_commands.md R59). -/
theorem absorbByte_cases (b : Byte) (s : State) :
    (offset (placeByte b s) = 0 ∧ absorbByte b s = compress (placeByte b s)) ∨
    (offset (placeByte b s) ≠ 0 ∧ absorbByte b s = placeByte b s) := by
  unfold absorbByte
  by_cases h : offset (placeByte b s) = 0
  · exact .inl ⟨h, if_pos h⟩
  · exact .inr ⟨h, if_neg h⟩

/-- absorb_byte moves the message and transform state only. -/
theorem absorbByte_onlyMessageMoved (b : Byte) (s : State) : OnlyMessageMoved s (absorbByte b s) := by
  obtain ⟨-, h⟩ | ⟨-, h⟩ := absorbByte_cases b s <;> (rw [h]; rfl)

/-- COUNT advances by one modulo 2^64 (40_commands.md R59). -/
@[simp] theorem absorbByte_count (b : Byte) (s : State) : (absorbByte b s).count = s.count + 1 := by
  obtain ⟨-, h⟩ | ⟨-, h⟩ := absorbByte_cases b s <;> (rw [h]; rfl)

/-- COMPRESS does not change BUF (41_compression.md R76), so absorb_byte only places its byte there. -/
@[simp] theorem absorbByte_buf (b : Byte) (s : State) : (absorbByte b s).buf = (placeByte b s).buf := by
  obtain ⟨-, h⟩ | ⟨-, h⟩ := absorbByte_cases b s
  · rw [h, compress_buf]
  · rw [h]

/-- The offset moves on by one, modulo 64, also across a wrap of COUNT (40_commands.md R59: "64 divides 2^64"). -/
theorem offset_placeByte (b : Byte) (s : State) : offset (placeByte b s) = (offset s + 1) % 64 := by
  simp [offset, BitVec.toNat_add]

theorem offset_absorbByte (b : Byte) (s : State) : offset (absorbByte b s) = (offset s + 1) % 64 := by
  simp [offset, BitVec.toNat_add]

@[simp] theorem absorbBytes_nil (s : State) : absorbBytes [] s = s := rfl

@[simp] theorem absorbBytes_cons (b : Byte) (bs : List Byte) (s : State) :
    absorbBytes (b :: bs) s = absorbBytes bs (absorbByte b s) := rfl

/-- The bytes are taken strictly one after another (40_commands.md R61). -/
theorem absorbBytes_append (bs cs : List Byte) (s : State) :
    absorbBytes (bs ++ cs) s = absorbBytes cs (absorbBytes bs s) := by
  simp [absorbBytes, List.foldl_append]

theorem absorbBytes_onlyMessageMoved (bs : List Byte) (s : State) : OnlyMessageMoved s (absorbBytes bs s) := by
  induction bs generalizing s with
  | nil => exact OnlyMessageMoved.refl s
  | cons b bs ih => exact (absorbByte_onlyMessageMoved b s).trans (ih _)

/-- One turn of the padding loop (42_finalize.md R80, step 3). -/
theorem padZeros_succ (n : Nat) (s : State) :
    padZeros (n + 1) s = if offset s = 56 then s else padZeros n (absorbByte 0x00 s) := rfl

theorem padZeros_onlyMessageMoved (n : Nat) (s : State) : OnlyMessageMoved s (padZeros n s) := by
  induction n generalizing s with
  | zero => exact OnlyMessageMoved.refl s
  | succ n ih =>
    rw [padZeros_succ]
    split
    · exact OnlyMessageMoved.refl s
    · exact (absorbByte_onlyMessageMoved 0x00 s).trans (ih _)

/-- The length field's bytes (42_finalize.md R83). -/
theorem lengthBlock_getElem_ge (bc : Long) (b : Block) (i : Nat) (h : 56 ≤ i) (h' : i < 64) :
    (lengthBlock bc b)[i] = longByte bc (i - 56) := by
  unfold lengthBlock
  simp [h]

/-- The length field leaves the bytes before it alone (42_finalize.md R83). -/
theorem lengthBlock_getElem_lt (bc : Long) (b : Block) (i : Nat) (h : i < 56) :
    (lengthBlock bc b)[i] = b[i] := by
  unfold lengthBlock
  simp [Nat.not_le.mpr h]

/-- What a field outside the message and transform state is after such a move. -/
theorem OnlyMessageMoved.fields {s u : State} (h : OnlyMessageMoved s u) :
    u.seq = s.seq ∧ u.lc = s.lc ∧ u.busy = s.busy ∧ (∀ e, u.err e = s.err e) ∧ u.dataIn = s.dataIn ∧
      u.latch = s.latch ∧ u.lat = s.lat ∧ u.turns = s.turns ∧ u.host = s.host := by
  rw [h]
  exact ⟨rfl, rfl, rfl, fun e => by cases e <;> rfl, rfl, rfl, rfl, rfl, rfl⟩

end Sys2Proof.Machine
end

