-- ==== Sys2Proof/Laws/Commands.lean ====
section
/-! SUPPORT. What a presented command can do, said once for each shared operation (40_commands.md R56). -/

namespace Sys2Proof.Machine

/-- The two outcomes of an accepted command: the whole of it at once, or its acceptance. -/
theorem runAccepted_cases (n : Nat) (d : Instr) (f : State → State) (s : State) :
    (n = 0 ∧ runAccepted n d f s = complete (f (accept d s))) ∨
    (n ≠ 0 ∧ runAccepted n d f s = accept d s) := by
  cases n with
  | zero => exact .inl ⟨rfl, rfl⟩
  | succ n => exact .inr ⟨Nat.succ_ne_zero n, rfl⟩

@[simp] theorem runAccepted_zero (d : Instr) (f : State → State) (s : State) :
    runAccepted 0 d f s = complete (f (accept d s)) := rfl

theorem runAccepted_of_ne_zero {n : Nat} (h : n ≠ 0) (d : Instr) (f : State → State) (s : State) :
    runAccepted n d f s = accept d s := by
  cases n with
  | zero => exact absurd rfl h
  | succ n => rfl

/-- Everything `exec` can do: an error, nothing (NOP), or an accepted command. -/
theorem exec_cases (i : Instr) (s : State) :
    (∃ e, exec i s = .next (raise e s)) ∨
    (i = .nop ∧ exec i s = .next s) ∨
    (i = .init ∧ s.busy = false ∧ exec i s = .next (runAccepted s.lat.init .init initEffect (clearErrors s))) ∨
    (∃ nb : BitVec 3, i = .absorb nb ∧ s.busy = false ∧ nb.toNat ≤ 4 ∧ s.lc = .active ∧
      s.count.toNat + nb.toNat ≤ 2 ^ 64 - 1 ∧
      exec i s = .next (runAccepted (absorbLatency s.lat nb.toNat (absorbCompressions nb.toNat s)) (.absorb nb)
        (absorbEffect nb.toNat) s)) ∨
    (i = .finalize ∧ s.busy = false ∧ s.lc = .active ∧
      exec i s = .next (runAccepted (finalizeLatency s.lat (finalizeCompressions s)) .finalize finalizeEffect s)) := by
  cases i with
  | nop =>
    simp only [exec, execNop]
    split
    · exact .inl ⟨.busy, rfl⟩
    · exact .inr (.inl ⟨trivial, rfl⟩)
  | init =>
    simp only [exec, execInit]
    split
    · exact .inl ⟨.busy, rfl⟩
    · exact .inr (.inr (.inl ⟨trivial, Bool.eq_false_iff.mpr ‹_›, rfl⟩))
  | absorb nb =>
    simp only [exec, execAbsorb]
    split
    · exact .inl ⟨.busy, rfl⟩
    split
    · exact .inl ⟨.cmd, rfl⟩
    split
    · exact .inl ⟨.seq, rfl⟩
    split
    · exact .inl ⟨.ovf, rfl⟩
    · exact .inr (.inr (.inr (.inl ⟨nb, rfl, Bool.eq_false_iff.mpr ‹_›, by omega, not_not.mp ‹_›,
        by omega, rfl⟩)))
  | finalize =>
    simp only [exec, execFinalize]
    split
    · exact .inl ⟨.busy, rfl⟩
    split
    · exact .inl ⟨.seq, rfl⟩
    · exact .inr (.inr (.inr (.inr ⟨trivial, Bool.eq_false_iff.mpr ‹_›, not_not.mp ‹_›, rfl⟩)))

/-- Everything a CMD write can do. -/
theorem presentCommand_cases (c : Word) (s : State) :
    (s.busy = true ∧ presentCommand c s = .next (raise .busy s)) ∨
    (s.busy = false ∧ (∃ why, decode c = .illegal why) ∧ presentCommand c s = .next (raise .cmd s)) ∨
    (s.busy = false ∧ ∃ i, decode c = .command i ∧ presentCommand c s = exec i s) := by
  unfold presentCommand
  split
  · exact .inl ⟨‹_›, rfl⟩
  · have hb : s.busy = false := by simpa using ‹¬ s.busy = true›
    split
    · exact .inr (.inl ⟨hb, ⟨_, ‹_›⟩, rfl⟩)
    · exact .inr (.inr ⟨hb, _, ‹_›, rfl⟩)

end Sys2Proof.Machine
end

