-- ==== Sys2Proof/Laws/Engine.lean ====
section
/-! SUPPORT. The engine agent's steps through SEQ, one lemma for each place (41_compression.md R77). -/

namespace Sys2Proof.Machine

@[simp] theorem engineRun_zero (s : State) : engineRun 0 s = s := rfl

@[simp] theorem engineRun_succ (n : Nat) (s : State) : engineRun (n + 1) s = engineRun n (engineStep s) := rfl

/-- Steps in a row are steps one after another. -/
theorem engineRun_add (m n : Nat) (s : State) : engineRun (m + n) s = engineRun n (engineRun m s) := by
  induction m generalizing s with
  | zero => simp
  | succ m ih => rw [Nat.succ_add, engineRun_succ, engineRun_succ, ih]

/-- At IDLE the engine has no step (60_exceptions.md R100). -/
theorem engineStep_of_idle {s : State} (h : s.seq.phase = .idle) : engineStep s = s := by
  simp [engineStep, h]

/-- (SCHED, 0): R71 and R73 together. -/
theorem engineStep_sched_zero {s : State} (h : s.seq = ⟨.sched, 0⟩) :
    engineStep s = { s with w := parseBlock s.buf s.w, work := loadWork s.h, seq := ⟨.sched, 16⟩ } := by
  simp [engineStep, schedPhase, h]

/-- (SCHED, t), t = 16..63: R72 for that t. -/
theorem engineStep_sched {s : State} {t : Fin 64} (h : s.seq = ⟨.sched, t⟩) (ht : 16 ≤ t.val) :
    engineStep s = { s with
      w := expandAt t.val s.w
      seq := if t.val = 63 then ⟨.round, 0⟩ else ⟨.sched, t + 1⟩ } := by
  have h0 : ¬ t = 0 := by rintro rfl; simp at ht
  simp [engineStep, schedPhase, h, ht, h0]

/-- (ROUND, t), t = 0..63: R74 for that t. -/
theorem engineStep_round {s : State} {t : Fin 64} (h : s.seq = ⟨.round, t⟩) :
    engineStep s = { s with
      work := roundAt t.val s.w s.work
      seq := if t.val = 63 then ⟨.feed, 0⟩ else ⟨.round, t + 1⟩ } := by
  simp [engineStep, roundPhase, h]

/-- (FEED, 0) inside a command: R75, and back to the command. -/
theorem engineStep_feed_some {s : State} {t : Fin 64} {q : Seq} (h : s.seq = ⟨.feed, t⟩)
    (hq : s.latch.resume = some q) :
    engineStep s = { s with
      h := feedForward s.h s.work, seq := q, latch := { s.latch with resume := none } } := by
  simp [engineStep, feedPhase, h, hq, goto]

/-- (FEED, 0) of FINALIZE's last compression: R75 and R85. -/
theorem engineStep_feed_none {s : State} {t : Fin 64} (h : s.seq = ⟨.feed, t⟩) (hq : s.latch.resume = none) :
    engineStep s = complete (consume { s with h := feedForward s.h s.work }) := by
  simp [engineStep, feedPhase, h, hq]

/-- (ABSORB, t) with a byte left to place (40_commands.md R58, R59). -/
theorem engineStep_absorb_byte {s : State} {t : Fin 64} {nb : BitVec 3} (h : s.seq = ⟨.absorb, t⟩)
    (hop : s.latch.op = .absorb nb) (ht : t.val < nb.toNat) :
    engineStep s =
      if offset (placeByte (wordByte s.latch.din t.val) s) = 0 then
        startCompress (some ⟨.absorb, t + 1⟩) (placeByte (wordByte s.latch.din t.val) s)
      else goto ⟨.absorb, t + 1⟩ (placeByte (wordByte s.latch.din t.val) s) := by
  simp [engineStep, absorbPhase, h, hop, ht]

/-- (ABSORB, t) with every byte placed: completion. -/
theorem engineStep_absorb_end {s : State} {t : Fin 64} {nb : BitVec 3} (h : s.seq = ⟨.absorb, t⟩)
    (hop : s.latch.op = .absorb nb) (ht : nb.toNat ≤ t.val) : engineStep s = complete s := by
  simp [engineStep, absorbPhase, h, hop, Nat.not_lt.mpr ht]

/-- INIT's one engine step (40_commands.md R57). -/
theorem engineStep_init {s : State} {t : Fin 64} (h : s.seq = ⟨.absorb, t⟩) (hop : s.latch.op = .init) :
    engineStep s = complete (initEffect s) := by
  simp [engineStep, absorbPhase, h, hop]

/-- (PAD, t): one padding byte (42_finalize.md R82 to R84). -/
theorem engineStep_pad {s : State} {t : Fin 64} (h : s.seq = ⟨.pad, t⟩) (hop : s.latch.op = .finalize) :
    engineStep s =
      let u := placeByte (padByte t) (takeBitCount s)
      if offset u = 0 then startCompress (some ⟨.pad, t + 1⟩) u
      else if offset u = 56 then startCompress none (writeLength u.latch.bc u)
      else goto ⟨.pad, t + 1⟩ u := by
  simp [engineStep, padPhase, h, hop]

/-- An engine step never touches the turns, the host or the parameters. -/
theorem engineStep_outside (s : State) :
    (engineStep s).turns = s.turns ∧ (engineStep s).host = s.host ∧ (engineStep s).lat = s.lat := by
  unfold engineStep absorbPhase padPhase schedPhase roundPhase feedPhase
  refine ⟨?_, ?_, ?_⟩ <;> (split <;> first | rfl | (repeat' (first | split | rfl | simp)))

end Sys2Proof.Machine
end

