-- ==== Sys2Proof/Laws/PerInstr.lean ====
section
/-! SUPPORT. What holds of every command as syntax, made one lemma for each constructor. -/

/-- The encoding of any command leaves the reserved fields 0 and carries its NB in bits 10:8, 0 for every command but ABSORB
(30_encoding.md R45, R47). -/
def Sys2Proof.Laws.EncodingFields.Statement (i : Sys2Proof.Instr) : Prop :=
  Sys2Proof.rsv1Field (Sys2Proof.encode i) = 0 ∧ Sys2Proof.rsv0Field (Sys2Proof.encode i) = 0 ∧
    ∀ nb, Sys2Proof.nbField (Sys2Proof.encode i) = nb → nb ≠ 0 → i = .absorb nb

theorem Sys2Proof.Laws.EncodingFields.nop : Sys2Proof.Laws.EncodingFields.Statement .nop := by
  unfold Sys2Proof.Laws.EncodingFields.Statement
  decide

theorem Sys2Proof.Laws.EncodingFields.init : Sys2Proof.Laws.EncodingFields.Statement .init := by
  unfold Sys2Proof.Laws.EncodingFields.Statement
  decide

theorem Sys2Proof.Laws.EncodingFields.absorb (nb : BitVec 3) :
    Sys2Proof.Laws.EncodingFields.Statement (.absorb nb) := by
  unfold Sys2Proof.Laws.EncodingFields.Statement
  revert nb
  decide

theorem Sys2Proof.Laws.EncodingFields.finalize : Sys2Proof.Laws.EncodingFields.Statement .finalize := by
  unfold Sys2Proof.Laws.EncodingFields.Statement
  decide
end

