-- ==== Sys2Proof/Laws/Step.lean ====
section
/-! SUPPORT. Everything one step of the machine can do, said once. -/

namespace Sys2Proof.Machine

/-- Everything the host's turn can do (30_encoding.md R54). -/
theorem hostTurn_cases (s : State) :
    (s.host.program = [] ∧ hostTurn s = .next s) ∨
    (∃ a v rest, s.host.program = .wr a v :: rest ∧
      ((a.admitted = true ∧ hostTurn s = busWrite (regAt a.off) v (withProgram rest s)) ∨
       (a.admitted = false ∧ hostTurn s = .refused .accessOutsideContract))) ∨
    (∃ a x rest, s.host.program = .rd a x :: rest ∧
      ((a.admitted = true ∧
          hostTurn s = .next (bindVar x (busRead (regAt a.off) s) (withProgram rest s))) ∨
       (a.admitted = false ∧ hostTurn s = .refused .accessOutsideContract))) ∨
    (∃ rest, s.host.program = .poll :: rest ∧
      (((status s)[0] = true ∧ hostTurn s = .next s) ∨
       ((status s)[0] = false ∧ hostTurn s = .next (withProgram rest s)))) ∨
    (∃ x v rest, s.host.program = .expect x v :: rest ∧
      hostTurn s = .next (checkExpect x v (withProgram rest s))) := by
  unfold hostTurn
  split
  · exact .inl ⟨‹_›, rfl⟩
  · rename_i a v rest hp
    refine .inr (.inl ⟨a, v, rest, hp, ?_⟩)
    split
    · exact .inl ⟨‹_›, rfl⟩
    · exact .inr ⟨by simpa using ‹¬ a.admitted = true›, rfl⟩
  · rename_i a x rest hp
    refine .inr (.inr (.inl ⟨a, x, rest, hp, ?_⟩))
    split
    · exact .inl ⟨‹_›, rfl⟩
    · exact .inr ⟨by simpa using ‹¬ a.admitted = true›, rfl⟩
  · rename_i rest hp
    refine .inr (.inr (.inr (.inl ⟨rest, hp, ?_⟩)))
    split
    · rename_i hb; exact .inl ⟨hb, rfl⟩
    · rename_i hb; exact .inr ⟨by simpa [busRead] using hb, rfl⟩
  · rename_i x v rest hp
    exact .inr (.inr (.inr (.inr ⟨x, v, rest, hp, rfl⟩)))

/-- Who moves in a step (log entry 3). -/
theorem step_cases (s : State) :
    (resetMoves s = true ∧ step s = .next (resetBlock (withTurns (laterTurns s) s))) ∨
    (resetMoves s = false ∧ hostMoves s = false ∧ step s = .next (engineStep (withTurns (laterTurns s) s))) ∨
    (resetMoves s = false ∧ hostMoves s = true ∧ step s = hostTurn (withTurns (laterTurns s) s)) := by
  unfold step resetMoves hostMoves laterTurns
  cases h : s.turns with
  | nil =>
    have hs : withTurns [] s = s := by rw [← h]; rfl
    cases hb : s.busy <;> simp [hs]
  | cons a ts => cases a <;> simp

/-- A write to any register but CMD answers a next state (20_memory.md R34). -/
theorem busWrite_of_ne_cmd {r : Reg} (h : r ≠ .cmd) (v : Word) (s : State) :
    busWrite r v s = .next (if r = .dataIn then writeDataIn v s else s) := by
  cases r <;> first | exact absurd rfl h | rfl

end Sys2Proof.Machine
end

