-- ==== Sys2Proof/Tests/Slice0.lean ====
section
/-! SUPPORT. The model's own tests. Every expected value is from the spec: 95_test_vectors.md or the example of the rule
a comment names. -/

namespace Sys2Proof.Machine.Tests

/-! ## WellFormed: NB = 5, 6, 7 (30_encoding.md R47) -/

theorem test_wellFormed_refuses_count_5 : ¬ WellFormed (.absorb 5) := by decide
theorem test_wellFormed_refuses_count_6 : ¬ WellFormed (.absorb 6) := by decide
theorem test_wellFormed_refuses_count_7 : ¬ WellFormed (.absorb 7) := by decide
theorem test_wellFormed_allows_count_4 : WellFormed (.absorb 4) := by decide

/-! ## Decode: words written out bit by bit, RSV1 NB RSV0 OP (30_encoding.md R45; 95_test_vectors.md §8) -/

theorem test_decode_nop : decode 0b000000000000000000000_000_0000_0000 = .command .nop := by decide
theorem test_decode_init : decode 0b000000000000000000000_000_0000_0001 = .command .init := by decide
theorem test_decode_absorb_0 : decode 0b000000000000000000000_000_0000_0010 = .command (.absorb 0) := by decide
theorem test_decode_absorb_1 : decode 0b000000000000000000000_001_0000_0010 = .command (.absorb 1) := by decide
theorem test_decode_absorb_4 : decode 0b000000000000000000000_100_0000_0010 = .command (.absorb 4) := by decide
theorem test_decode_finalize : decode 0b000000000000000000000_000_0000_0011 = .command .finalize := by decide

/-- 95_test_vectors.md §8: the illegal rows and their reasons. -/
theorem test_decode_illegal_rows :
    [0x00000502, 0x00000702].map decode = List.replicate 2 (.illegal .countTooBig) ∧
    [0x00000101, 0x00000103, 0x00000100].map decode = List.replicate 3 (.illegal .countWithoutAbsorb) ∧
    [0x00000004, 0x0000000f].map decode = List.replicate 2 (.illegal .reservedOp) ∧
    [0x00000012, 0x00000802, 0x80000001, 0xffffffff].map decode = List.replicate 4 (.illegal .reservedBit) := by
  decide

theorem test_decodeTableWord_absorb_3 : decodeTableWord 32 0x302 = some (.absorb 3) := by decide
theorem test_decodeTableWord_illegal : decodeTableWord 32 0x502 = none := by decide

/-- 30_encoding.md R53. -/
theorem test_spell : spell 0x302 = "ABSORB 3" ∧ spell 3 = "FINALIZE" ∧ spell 0x12 = ".word 0x00000012 ; illegal" := by
  decide +kernel

/-! ## Bit functions (95_test_vectors.md §2; the examples of 41_compression.md R62 to R69) -/

theorem test_rotr : rotr 0x00000001 7 = 0x02000000 ∧ rotr 0xdeadbeef 7 = 0xdfbd5b7d := by decide
theorem test_smallSigma0 : smallSigma0 0x6a09e667 = 0xba0cf582 ∧ smallSigma0 0xffffffff = 0x1fffffff := by decide
theorem test_smallSigma1 : smallSigma1 0x6a09e667 = 0xcfe5da3c ∧ smallSigma1 0xffffffff = 0x003fffff := by decide
theorem test_bigSigma0 : bigSigma0 0x6a09e667 = 0xce20b47e ∧ bigSigma0 0x12345678 = 0x66146474 := by decide
theorem test_bigSigma1 : bigSigma1 0x6a09e667 = 0x55b65510 ∧ bigSigma1 0x12345678 = 0x3561abda := by decide
theorem test_ch : ch 0x510e527f 0x9b05688c 0x1f83d9ab = 0x1f85c98c := by decide
theorem test_maj : maj 0x6a09e667 0xbb67ae85 0x3c6ef372 = 0x3a6fe667 := by decide

/-! ## One compression (95_test_vectors.md §3) -/

/-- The padded block of "abc". -/
def abcBlock : Block :=
  ((((Vector.replicate 64 0).set 0 0x61).set 1 0x62).set 2 0x63).set 3 0x80 |>.set 63 0x18

theorem test_schedule_of_abc :
    let w := scheduleOf abcBlock (Vector.replicate 64 0xffffffff)
    w[0] = 0x61626380 ∧ w[15] = 0x18 ∧ w[16] = 0x61626380 ∧ w[17] = 0x000f0000 ∧ w[63] = 0x12b1edeb := by
  decide +kernel

/-- Round 0 of the table: T1, T2, then a and e. -/
theorem test_round_0_of_abc :
    roundT1 0 0x61626380 (loadWork IV) = 0x54da50e8 ∧ roundT2 (loadWork IV) = 0x08909ae5 ∧
    (roundAt 0 (Vector.replicate 64 0x61626380) (loadWork IV)).a = 0x5d6aebcd ∧
    (roundAt 0 (Vector.replicate 64 0x61626380) (loadWork IV)).e = 0xfa2a4622 := by
  decide +kernel

theorem test_compress_abc :
    compressHash IV abcBlock =
      #v[0xba7816bf, 0x8f01cfea, 0x414140de, 0x5dae2223, 0xb00361a3, 0x96177a9c, 0xb410ff61, 0xf20015ad] := by
  decide +kernel

/-! ## Commands -/

/-- The machine after reset with every latency 0. -/
def fresh : State := { State.reset with lat := Latency.zero }

/-- The machine after reset with every latency 1. -/
def slow : State := { State.reset with lat := ⟨1, Vector.replicate 5 1, Vector.replicate 5 1, 1, 1⟩ }

/-- An ACTIVE machine with COUNT = `n` and BUF[0..2] = "abc" (launch states: 95_test_vectors.md §9). -/
def activeAt (n : Long) : State :=
  { fresh with lc := .active, h := IV, count := n, buf := (((Vector.replicate 64 0xaa).set 0 0x61).set 1 0x62).set 2 0x63 }

/-- What a test looks at in a next state. -/
def after {α : Type} (f : State → α) (o : Host.Outcome State Fault Refusal) : Option α :=
  match o with
  | .next s => some (f s)
  | .fault _ => none
  | .refused _ => none

/-- 40_commands.md R60, example. -/
theorem test_nop : after (fun s => (status s, s.busy)) (exec .nop (activeAt 3)) = some (0x00000002, false) := by decide

/-- 40_commands.md R57, example. -/
theorem test_init :
    after (fun s => (status s, s.h, s.count)) (exec .init fresh) = some (0x00000002, IV, 0) := by decide +kernel

/-- INIT clears the error bits, from DONE too. -/
theorem test_init_clears_errors :
    after status (exec .init { fresh with lc := .done, errCmd := true, errOvf := true }) = some 0x00000002 := by
  decide

/-- 40_commands.md R58, example: the byte 0x64 is ignored. -/
theorem test_absorb :
    after (fun s => (status s, s.count, s.h, [s.buf[0], s.buf[1], s.buf[2], s.buf[3]]))
      (exec (.absorb 3) { activeAt 0 with dataIn := 0x61626364, buf := Vector.replicate 64 0 }) =
      some (0x00000002, 3, IV, [0x61, 0x62, 0x63, 0x00]) := by decide +kernel

/-- 40_commands.md R58: at offset 62, ABSORB 4 compresses after its second byte and leaves offset 2. -/
theorem test_absorb_straddles :
    after (fun s => (s.count, s.buf[62], s.buf[63], s.buf[0], s.buf[1], decide (s.h = IV)))
      (exec (.absorb 4) { activeAt 62 with dataIn := 0x01020304 }) = some (66, 0x01, 0x02, 0x03, 0x04, false) := by
  decide +kernel

/-- 95_test_vectors.md §1, S2: the digest of "abc", and the scrub of 42_finalize.md R85. -/
theorem test_finalize_abc :
    after (fun s => (status s, s.h, s.count, s.buf[0])) (exec .finalize (activeAt 3)) =
      some (0x00000004, #v[0xba7816bf, 0x8f01cfea, 0x414140de, 0x5dae2223, 0xb00361a3, 0x96177a9c, 0xb410ff61, 0xf20015ad], 0, 0) := by
  decide +kernel

/-- 95_test_vectors.md §5: the 56-byte message, whose padding takes two compressions. -/
theorem test_finalize_two_blocks :
    after (fun s => (s.h[0], s.h[7])) (exec .finalize { activeAt 56 with
      buf := Vector.ofFn fun i => BitVec.ofNat 8 (0x61 + i.val / 4 + i.val % 4) }) = some (0x248d6a61, 0x19db06c1) := by
  decide +kernel

/-- 95_test_vectors.md §1, S1: the empty message. -/
theorem test_sha256_empty : (sha256 [])[0] = 0xe3b0c442 ∧ (sha256 [])[7] = 0x7852b855 := by decide +kernel

/-- 95_test_vectors.md §4, L = 63: the padding needs a second block. -/
theorem test_sha256_63 : (sha256 (List.replicate 63 0x61))[0] = 0x7d3e74a0 := by decide +kernel

/-! ## Errors (95_test_vectors.md §9) -/

theorem test_absorb_before_init : after status (exec (.absorb 4) fresh) = some 0x00000200 := by decide
theorem test_finalize_in_done :
    after status (exec .finalize { fresh with lc := .done }) = some 0x00000204 := by decide
theorem test_illegal_word : after status (presentCommand 0x00000004 fresh) = some 0x00000100 := by decide
theorem test_overflow :
    after (fun s => (status s, s.count)) (exec (.absorb 2) (activeAt 0xfffffffffffffffe)) =
      some (0x00000400, 0xfffffffffffffffe) := by decide
theorem test_absorb_to_the_limit :
    after (fun s => (status s, s.count)) (exec (.absorb 1) (activeAt 0xfffffffffffffffe)) =
      some (0x00000002, 0xffffffffffffffff) := by decide +kernel

/-- A NOP written while BUSY = 1 (60_exceptions.md R91): the running INIT stays, and ERR_BUSY shows. -/
theorem test_nop_while_busy :
    after status (exec .nop { fresh with busy := true, seq := ⟨.absorb, 0⟩, latch := ⟨.init, 0, 0, none⟩ }) =
      some 0x00000801 := by decide

/-! ## Steps -/

/-- The first instruction after reset, with whatever latency: an ABSORB raises ERR_SEQ (70_reset_and_hazards.md R103). -/
theorem test_first_instruction_absorb :
    after (fun s => status s) (step (State.reset.withFetchWord 32 0x402)) = some 0x00000200 := by decide

/-- With a positive latency INIT is accepted and BUSY shows; LC still shows EMPTY (10_state.md R24). -/
theorem test_init_with_latency :
    after (fun s => (status s, s.seq)) (step (slow.withFetchWord 32 1)) = some (0x00000001, ⟨.absorb, 0⟩) := by decide

/-- An access of two bytes is refused (20_memory.md R33). -/
theorem test_narrow_access_refused :
    step { fresh with host := ⟨[.rd ⟨0x04, 2⟩ "s"], [], true⟩ } = .refused .accessOutsideContract := by rfl

/-- POLL stays while BUSY = 1 (30_encoding.md R54). -/
theorem test_poll_stays :
    after (fun s => s.host.program)
      (step { fresh with busy := true, seq := ⟨.absorb, 0⟩, latch := ⟨.init, 0, 0, none⟩, turns := [.host], host := ⟨[.poll], [], true⟩ }) =
      some [.poll] := by decide

/-- The two outcomes of 95_test_vectors.md §9 for a CMD write without POLL: (a) the engine still runs. -/
theorem test_write_meets_busy :
    after status (hostTurn { slow with busy := true, seq := ⟨.feed, 0⟩, latch := ⟨.finalize, 0, 0, none⟩, lc := .active, host := ⟨hostInit, [], true⟩ }) =
      some 0x00000803 := by decide

/-- The block parse of the engine's first SCHED step (41_compression.md R71, example; R77). -/
theorem test_engine_sched_0 :
    (engineStep { activeAt 0 with buf := abcBlock, busy := true, seq := ⟨.sched, 0⟩ }).w[0] = 0x61626380 ∧
    (engineStep { activeAt 0 with buf := abcBlock, busy := true, seq := ⟨.sched, 0⟩ }).seq = ⟨.sched, 16⟩ := by
  decide +kernel

/-- 42_finalize.md R82: the 0x80 byte, and the bit count taken before it (R81). -/
theorem test_engine_pad_0 :
    let s := engineStep { activeAt 3 with busy := true, seq := ⟨.pad, 0⟩, latch := ⟨.finalize, 0, 0, none⟩ }
    s.buf[3] = 0x80 ∧ s.latch.bc = 0x18 ∧ s.seq = ⟨.pad, 1⟩ := by decide +kernel

/-! ## Witnesses: for each statement of Certificates/Slice0/Obligations.lean that has hypotheses, states and operands that
meet them together, at the boundary of each clause -/

/-- INIT runs, accepted with a positive latency. -/
def runningInit : State := { slow with busy := true, seq := ⟨.absorb, 0⟩, latch := ⟨.init, 0, 0, none⟩ }

/-- FINALIZE runs, about to place its 0x80 byte at offset 63. -/
def runningFinalize : State :=
  { slow with lc := .active, count := 63, busy := true, seq := ⟨.pad, 0⟩, latch := ⟨.finalize, 0, 0, none⟩ }

/-- ABSORB 4 runs, inside the compression after its second byte. -/
def runningAbsorb : State :=
  { slow with
    lc := .active, count := 64, busy := true, seq := ⟨.sched, 0⟩
    latch := ⟨.absorb 4, 0x01020304, 0, some ⟨.absorb, 2⟩⟩ }

/-- An ACTIVE machine with every latency 1. -/
def slowActive : State := { slow with lc := .active, h := IV, count := 3 }

/-- The host is about to make this statement. -/
def about (x : Stmt) (s : State) : State := { s with host := ⟨[x], [], true⟩ }

theorem witness_NopCompletesWithoutEffect : fresh.busy = false ∧ runningInit.busy = true := by decide

theorem witness_InitLoadsTheInitialHash :
    Idle fresh ∧ fresh.lat.init = 0 ∧ Idle slow ∧ slow.lat.init ≠ 0 ∧ runningInit.busy = true := by decide

/-- COUNT + 4 = 2^64 - 1, the last count that fits; and nb = 0. -/
theorem witness_AbsorbTakesTheFirstBytes :
    let s := activeAt 0xfffffffffffffffb
    Idle s ∧ s.lc = .active ∧ s.count.toNat + (4 : BitVec 3).toNat = 2 ^ 64 - 1 ∧
      absorbLatency s.lat 4 (absorbCompressions 4 s) = 0 ∧ absorbLatency s.lat 0 (absorbCompressions 0 s) = 0 := by decide

/-- r = 55 and r = 56. -/
theorem witness_FinalizePadsCompressesAndScrubs :
    Idle (activeAt 55) ∧ (activeAt 55).lc = .active ∧
      finalizeLatency (activeAt 55).lat (finalizeCompressions (activeAt 55)) = 0 ∧
      Idle (activeAt 56) ∧ finalizeLatency (activeAt 56).lat (finalizeCompressions (activeAt 56)) = 0 := by decide

theorem witness_PositiveLatencyOnlyAccepts :
    Idle slowActive ∧ slowActive.lc = .active ∧ slowActive.count.toNat + (4 : BitVec 3).toNat ≤ 2 ^ 64 - 1 ∧
      absorbLatency slowActive.lat 4 (absorbCompressions 4 slowActive) ≠ 0 ∧
      finalizeLatency slowActive.lat (finalizeCompressions slowActive) ≠ 0 := by decide

theorem witness_EngineStepsEqualTheAtomicEffect : Idle slowActive ∧ slowActive.lc = .active := by decide

theorem witness_CompressIs114EngineSteps :
    runningAbsorb.seq = ⟨.sched, 0⟩ ∧ runningAbsorb.latch.resume = some ⟨.absorb, 2⟩ := by decide

/-- One state at each place: (SCHED, 0), (SCHED, 16), (SCHED, 63), (ROUND, 0), (ROUND, 63), (FEED, 0). -/
theorem witness_EachPlaceOfCompressDoesItsRule :
    let at_ (q : Seq) : State := { runningAbsorb with seq := q }
    (engineStep (at_ ⟨.sched, 0⟩)).seq = ⟨.sched, 16⟩ ∧ (engineStep (at_ ⟨.sched, 16⟩)).seq = ⟨.sched, 17⟩ ∧
      (engineStep (at_ ⟨.sched, 63⟩)).seq = ⟨.round, 0⟩ ∧ (engineStep (at_ ⟨.round, 0⟩)).seq = ⟨.round, 1⟩ ∧
      (engineStep (at_ ⟨.round, 63⟩)).seq = ⟨.feed, 0⟩ ∧ (engineStep (at_ ⟨.feed, 0⟩)).seq = ⟨.absorb, 2⟩ ∧
      (at_ ⟨.feed, 0⟩).latch.resume = some ⟨.absorb, 2⟩ := by
  decide +kernel

/-- 41_compression.md R64, R65: bit 28 is the highest bit that x >> 3 fills, and bit 21 that x >> 10 does. -/
theorem witness_SigmaFunctionsBitByBit :
    (31 < 32 ∧ 0 < 32) ∧ (smallSigma0 0x80000000).getLsbD 28 = true ∧ (smallSigma1 0x80000000).getLsbD 21 = true := by
  decide

/-- The offset wraps after COUNT = 63, and does not after 62. -/
theorem witness_AbsorbByteRule :
    (BitVec.ofNat 64 ((activeAt 63).count.toNat + 1)).toNat % 64 = 0 ∧
      (BitVec.ofNat 64 ((activeAt 62).count.toNat + 1)).toNat % 64 ≠ 0 := by decide

theorem witness_EngineTakesTheBitCountFirst :
    runningFinalize.seq = ⟨.pad, 0⟩ ∧ runningFinalize.latch.op = .finalize := by decide

theorem witness_OneCompressionPer64Bytes : offset (activeAt 64) = 0 ∧ offset (activeAt 0) = 0 := by decide

/-- An ABSORB 4, an illegal word, a NOP and an ABSORB 0; and another split of the same bytes. -/
theorem witness_StreamingEquivalence :
    Idle (activeAt 0) ∧ Atomic (activeAt 0) ∧ (activeAt 0).lc = .active ∧
      WithinMessage [(0x61626364, 0x402), (0, 0x12), (0, 0), (7, 0x002)] ∧
      WithinMessage [(0x61620000, 0x202), (0x63640000, 0x202)] ∧
      messageOf [(0x61626364, 0x402), (0, 0x12), (0, 0), (7, 0x002)] =
        messageOf [(0x61620000, 0x202), (0x63640000, 0x202)] ∧
      messageOf [(0x61620000, 0x202), (0x63640000, 0x202)] = [0x61, 0x62, 0x63, 0x64] := by
  decide +kernel

theorem witness_DigestIsSha256OfTheMessage :
    Idle fresh ∧ Atomic fresh ∧ WithinMessage [(0x61626300, 0x302)] ∧
      (messageOf [(0x61626300, 0x302)]).length ≤ 2 ^ 64 - 1 := by
  decide +kernel

theorem witness_AbsorbsStatementsDeliverTheBytes :
    let s := { activeAt 0 with host := ⟨hostAbsorbs [1, 2, 3, 4, 5] ++ [.poll], [], true⟩ }
    Idle s ∧ Atomic s ∧ s.lc = .active ∧ s.turns = [] ∧ s.count.toNat + [1, 2, 3, 4, 5].length ≤ 2 ^ 64 - 1 ∧
      s.host.program = hostAbsorbs [1, 2, 3, 4, 5] ++ [.poll] := by decide

theorem witness_AbsorbIgnoresTheUnusedBytes :
    let s := { activeAt 0 with dataIn := 0x61626364 }
    Idle s ∧ Atomic s ∧
      ∀ k < (3 : BitVec 3).toNat, (0x616263ff : Word).extractLsb' (24 - 8 * k) 8 = s.dataIn.extractLsb' (24 - 8 * k) 8 := by
  decide

/-- One state for each check, COUNT + nb = 2^64 for the counter's, and an accepted command of each kind. -/
theorem witness_ErrorChecksInFixedOrder :
    runningInit.busy = true ∧
      (fresh.busy = false ∧ decode 0x12 = .illegal .reservedBit) ∧
      (fresh.busy = false ∧ fresh.lc ≠ .active ∧ decode 0x002 = .command (.absorb 0) ∧ decode 3 = .command .finalize) ∧
      ((activeAt 0xfffffffffffffffe).lc = .active ∧ decode 0x202 = .command (.absorb 2) ∧
        (activeAt 0xfffffffffffffffe).count.toNat + (2 : BitVec 3).toNat = 2 ^ 64) ∧
      ((activeAt 0xfffffffffffffffe).count.toNat + (1 : BitVec 3).toNat ≤ 2 ^ 64 - 1) := by decide

theorem witness_IllegalWordRaisesErrCmd :
    decode 0x80000000 = .illegal .reservedBit ∧ decode 0x10 = .illegal .reservedBit ∧ decode 4 = .illegal .reservedOp ∧
      decode 0x502 = .illegal .countTooBig ∧ decode 0x101 = .illegal .countWithoutAbsorb ∧ fresh.busy = false := by decide

theorem witness_LifecycleViolationRaisesErrSeq :
    (fresh.busy = false ∧ fresh.lc ≠ .active) ∧ ({ fresh with lc := .done } : State).lc ≠ .active := by decide

theorem witness_CounterOverflowRaisesErrOvf :
    let s := activeAt 0xfffffffffffffffc
    s.busy = false ∧ s.lc = .active ∧ s.count.toNat + (4 : BitVec 3).toNat = 2 ^ 64 ∧
      after State.errOvf (exec .finalize fresh) = some false := by decide

theorem witness_CommandWhileBusyIsDiscarded :
    runningFinalize.busy = true ∧ resetMoves (about (wr .cmd 1) { runningFinalize with turns := [.host] }) = false ∧
      after State.errBusy (step (about (wr .cmd 1) { runningFinalize with turns := [.host] })) = some true := by decide

theorem witness_BothBusyOutcomesOccur :
    Idle slowActive ∧ slowActive.lc = .active ∧ (∀ e ∈ [Err.cmd, .seq, .ovf, .busy], slowActive.err e = false) ∧
      finalizeLatency slowActive.lat (finalizeCompressions slowActive) ≠ 0 := by decide

/-- A set bit in an ordinary step, in a reset, and at an INIT's acceptance. -/
theorem witness_ErrorBitsAreSticky :
    let s := { fresh with errSeq := true }
    after State.errSeq (step (about (wr .cmd 0) s)) = some true ∧
      (resetMoves { s with turns := [.reset] } = true ∧ after State.errSeq (step { s with turns := [.reset] }) = some false) ∧
      (hostMoves (about (wr .cmd 1) s) = true ∧ (about (wr .cmd 1) s).busy = false ∧
        after State.errSeq (step (about (wr .cmd 1) s)) = some false) := by decide

theorem witness_AccessOutsideTheContractIsRefused :
    hostMoves (about (.wr ⟨0x3C, 4⟩ 0) fresh) = true ∧
      step (about (.wr ⟨0x40, 4⟩ 0) fresh) = .refused .accessOutsideContract ∧
      step (about (.rd ⟨0x3E, 4⟩ "x") fresh) = .refused .accessOutsideContract ∧
      after status (step (about (.wr ⟨0x3C, 4⟩ 0) fresh)) = some 0 := by
  refine ⟨by decide, rfl, rfl, by decide⟩

theorem witness_ReadsHaveNoSideEffect :
    hostMoves (about (.rd ⟨0x3C, 4⟩ "x") fresh) = true ∧ 0x3C % 4 = 0 ∧
      (about (.rd ⟨0x3C, 4⟩ "x") fresh).host.program = [.rd ⟨0x3C, 4⟩ "x"] := by decide

/-- The two states differ in COUNT, BUF and SEQ. -/
theorem witness_HostSeesTheInterfaceOnly :
    SameOutside
      { activeAt 3 with seq := (activeAt 5).seq, latch := (activeAt 5).latch } { activeAt 5 with buf := Vector.replicate 64 1 } ∧
      (activeAt 3).lc ≠ .done := by
  exact ⟨rfl, by decide⟩

theorem witness_DigestBytesAreBigEndian :
    let s := { activeAt 0 with lc := .done }
    s.lc = .done ∧ s.busy = false ∧ digestByte s ⟨4 * 7 + 3, by omega⟩ = 0x19 := by decide

theorem witness_BusyHidesTheRunningCommand :
    after State.busy (step (slow.withFetchWord 32 1)) = some true ∧ after State.busy (step runningFinalize) = some true := by
  decide

theorem witness_DecodeAndEncodeAgree : WellFormed (.absorb 4) ∧ decode 0x402 = .command (.absorb 4) := by decide

theorem witness_StepRunsTheDecodedCommand :
    (hostMoves (about (wr .cmd 0x302) fresh) = true ∧ fresh.busy = false ∧ decode 0x302 = .command (.absorb 3)) ∧
      decode 0x12 = .illegal .reservedBit ∧
      (hostMoves (about (wr .cmd 0x302) { runningInit with turns := [.host] }) = true ∧ runningInit.busy = true) := by decide

theorem witness_FetchWordIsPresentedNext :
    0xffffffff < 2 ^ 32 ∧ after status (step (fresh.withFetchWord 32 0xffffffff)) = some 0x00000100 := by decide

/-- The invariant at rest, and in running commands. -/
theorem witness_StepKeepsTheEngineInvariant :
    EngineInv fresh ∧ EngineInv runningInit ∧ EngineInv runningFinalize ∧ EngineInv runningAbsorb ∧
      after State.busy (step runningFinalize) = some true := by
  unfold EngineInv
  decide

theorem witness_EveryRunningCommandEnds : EngineInv runningAbsorb ∧ runningAbsorb.busy = true := by
  unfold EngineInv
  decide

theorem witness_PollEndsUnderEverySchedule :
    EngineInv (about .poll { runningFinalize with turns := [.host, .engine, .reset] }) ∧
      (about .poll runningFinalize).host.program = [.poll] := by
  unfold EngineInv
  decide

theorem witness_ResetValues : ({ runningFinalize with turns := [.reset] } : State).turns = .reset :: [] := by decide

theorem witness_IdleEngineKeepsItsState :
    Idle { fresh with turns := [.engine] } ∧ Idle fresh ∧ fresh.turns = [] ∧ fresh.host.program = [] := by decide

/-- LC moves to ACTIVE, and to EMPTY by ERR_OVF and by reset. -/
theorem witness_LifecycleMovesOnlyByItsRules :
    (EngineInv runningInit ∧ after State.lc (step runningInit) = some .active) ∧
      (EngineInv (about (wr .cmd 0x202) (activeAt 0xfffffffffffffffe)) ∧
        after State.lc (step (about (wr .cmd 0x202) (activeAt 0xfffffffffffffffe))) = some .empty) ∧
      (EngineInv { slowActive with turns := [.reset] } ∧
        after State.lc (step { slowActive with turns := [.reset] }) = some .empty) := by
  unfold EngineInv
  decide +kernel

/-- The last of the three moves, to DONE. -/
theorem witness_LifecycleMovesToDone :
    let s := { slowActive with count := 56, busy := true, seq := ⟨.feed, 0⟩, latch := ⟨.finalize, 0, 0, none⟩ }
    EngineInv s ∧ after State.lc (step s) = some .done := by
  unfold EngineInv
  decide +kernel

/-- Two machines that differ in BUF beyond the offset, in W and in a..h. -/
theorem witness_DeadStateIsNeverRead :
    SameLive (activeAt 3)
      { activeAt 3 with buf := (((Vector.replicate 64 0x55).set 0 0x61).set 1 0x62).set 2 0x63, w := Vector.replicate 64 9, work := ⟨1, 2, 3, 4, 5, 6, 7, 8⟩ } ∧
      Atomic (activeAt 3) := by
  unfold SameLive
  exact ⟨⟨by decide, by decide, rfl, by decide +kernel, by decide⟩, by decide⟩

/-- 41_compression.md R62, R68: the bit indexes at their boundaries. -/
theorem witness_RotrMovesEachBit : 0 < 31 ∧ 31 < 32 ∧ (rotr 0x00000001 31).getLsbD 1 = true := by decide

end Sys2Proof.Machine.Tests
end

section
/-! SUPPORT for O20: absorb_byte as a hash chain over 64-byte blocks (40_commands.md R59, R61), the padding of FINALIZE
(42_finalize.md R80 to R84), and the words of a message one after another (latency 0). -/

namespace Sys2Proof.Machine

/-! ### The hash chain -/

/-- One compression for each full 64-byte block of `m`, in order, from `h` on. `sha256` is this over the padded message
(`sha256_eq_chain`), and the machine keeps it in H (`Chained.after_absorbBytes`). -/
def chain (h : Hash) (m : List Byte) : Hash :=
  (List.range (m.length / 64)).foldl (fun h j => compressHash h (blockAt m j)) h

theorem sha256_eq_chain (m : List Byte) : sha256 m = chain IV (padded m) := rfl

theorem blockAt_getElem (m : List Byte) (j i : Nat) (hi : i < 64) : (blockAt m j)[i] = m.getD (64 * j + i) 0 := by
  simp [blockAt]

theorem blockAt_append_left (p q : List Byte) (j : Nat) (hj : 64 * (j + 1) ≤ p.length) :
    blockAt (p ++ q) j = blockAt p j := by
  ext1 i hi
  rw [blockAt_getElem, blockAt_getElem, List.getD_append _ _ _ _ (by omega)]

/-- Bytes appended to `p` do not change the compressions of the full blocks of `p`. -/
theorem foldl_blocks_append (h : Hash) (p q : List Byte) :
    (List.range (p.length / 64)).foldl (fun h j => compressHash h (blockAt (p ++ q) j)) h = chain h p := by
  refine List.foldl_ext _ _ _ fun g j hj => ?_
  have : j < p.length / 64 := List.mem_range.mp hj
  rw [blockAt_append_left p q j (by omega)]

theorem chain_append_of_lt (h : Hash) (p q : List Byte) (hq : p.length % 64 + q.length < 64) :
    chain h (p ++ q) = chain h p := by
  have hblocks : (p ++ q).length / 64 = p.length / 64 := by rw [List.length_append]; omega
  rw [← foldl_blocks_append h p q, chain, hblocks]

theorem chain_append_of_eq (h : Hash) (p q : List Byte) (hq : p.length % 64 + q.length = 64) :
    chain h (p ++ q) = compressHash (chain h p) (blockAt (p ++ q) (p.length / 64)) := by
  have hblocks : (p ++ q).length / 64 = p.length / 64 + 1 := by rw [List.length_append]; omega
  rw [← foldl_blocks_append h p q, chain, hblocks, List.range_succ, List.foldl_concat]

/-! ### absorb_byte -/

/-- The new H of COMPRESS does not depend on W (41_compression.md R76). -/
theorem compress_h_eq_compressHash (s : State) : (compress s).h = compressHash s.h s.buf := by
  rw [compress_h, compress_work, compressHash, finalWork_eq, finalWork_eq,
    scheduleOf_congr s.buf s.w (Vector.replicate 64 0)]

theorem absorbByte_h (b : Byte) (s : State) :
    (absorbByte b s).h = if offset (placeByte b s) = 0 then compressHash s.h (placeByte b s).buf else s.h := by
  obtain ⟨h0, h⟩ | ⟨h0, h⟩ := absorbByte_cases b s
  · rw [h, if_pos h0, compress_h_eq_compressHash, placeByte_h]
  · rw [h, if_neg h0, placeByte_h]

theorem placeByte_buf_getElem (b : Byte) (s : State) (i : Nat) (hi : i < 64) :
    (placeByte b s).buf[i] = if offset s = i then b else s.buf[i] :=
  Vector.getElem_set (Nat.mod_lt _ (by decide)) hi

theorem absorbBytes_count (bs : List Byte) (s : State) :
    (absorbBytes bs s).count = s.count + BitVec.ofNat 64 bs.length := by
  induction bs generalizing s with
  | nil => simp
  | cons b bs ih =>
    rw [absorbBytes_cons, ih, absorbByte_count, List.length_cons, Nat.add_comm, BitVec.ofNat_add, BitVec.add_assoc]
    rfl

/-- The message path reads H, COUNT and BUF only; the two states agree on these. -/
structure SameMessage (s t : State) : Prop where
  h_eq : s.h = t.h
  count_eq : s.count = t.count
  buf_eq : s.buf = t.buf

theorem SameMessage.trans {s t u : State} (h : SameMessage s t) (h' : SameMessage t u) : SameMessage s u :=
  ⟨h.h_eq.trans h'.h_eq, h.count_eq.trans h'.count_eq, h.buf_eq.trans h'.buf_eq⟩

theorem SameMessage.offset_eq {s t : State} (h : SameMessage s t) : offset s = offset t := by
  rw [offset, offset, h.count_eq]

theorem SameMessage.after_absorbByte {s t : State} (h : SameMessage s t) (b : Byte) :
    SameMessage (absorbByte b s) (absorbByte b t) := by
  have hbuf : (placeByte b s).buf = (placeByte b t).buf := by simp only [placeByte, h.buf_eq, h.count_eq]
  refine ⟨?_, ?_, ?_⟩
  · rw [absorbByte_h, absorbByte_h, offset_placeByte, offset_placeByte, h.offset_eq, hbuf, h.h_eq]
  · rw [absorbByte_count, absorbByte_count, h.count_eq]
  · rw [absorbByte_buf, absorbByte_buf, hbuf]

theorem SameMessage.after_absorbBytes {s t : State} (h : SameMessage s t) (bs : List Byte) :
    SameMessage (absorbBytes bs s) (absorbBytes bs t) := by
  induction bs generalizing s t with
  | nil => exact h
  | cons b bs ih => exact ih (h.after_absorbByte b)

/-! ### The machine keeps the hash chain -/

/-- Since a block boundary with H = `h` the machine has absorbed the bytes `m`: H is their hash chain, and BUF holds the
bytes after the last full block (10_state.md R16). -/
structure Chained (h : Hash) (m : List Byte) (s : State) : Prop where
  hash_eq : s.h = chain h m
  offset_eq : offset s = m.length % 64
  tail_eq : ∀ i (_ : i < 64), i < m.length % 64 → s.buf[i] = m.getD (64 * (m.length / 64) + i) 0

theorem Chained.nil {s : State} (h : offset s = 0) : Chained s.h [] s :=
  ⟨rfl, h, fun _ _ hi => absurd hi (Nat.not_lt_zero _)⟩

theorem Chained.of_sameMessage {h : Hash} {m : List Byte} {s t : State} (hs : Chained h m s) (ht : SameMessage t s) :
    Chained h m t :=
  ⟨ht.h_eq.trans hs.hash_eq, ht.offset_eq.trans hs.offset_eq, fun i hi hlt => by rw [ht.buf_eq, hs.tail_eq i hi hlt]⟩

section
variable {h : Hash} {m : List Byte} {s : State} (hs : Chained h m s)
include hs

/-- BUF up to and including the placed byte. -/
theorem Chained.placeByte_buf (b : Byte) (i : Nat) (hi : i < 64) (hle : i ≤ m.length % 64) :
    (placeByte b s).buf[i] = (m ++ [b]).getD (64 * (m.length / 64) + i) 0 := by
  rw [placeByte_buf_getElem, hs.offset_eq]
  obtain rfl | hlt := Nat.eq_or_lt_of_le hle
  · rw [if_pos rfl, Nat.div_add_mod, List.getD_append_right _ _ _ _ le_rfl, Nat.sub_self, List.getD_cons_zero]
  · rw [if_neg hlt.ne', hs.tail_eq i hi hlt, List.getD_append _ _ _ _ (by omega)]

theorem Chained.after_absorbByte (b : Byte) : Chained h (m ++ [b]) (absorbByte b s) := by
  have hoff : offset (placeByte b s) = (m.length % 64 + 1) % 64 := by rw [offset_placeByte, hs.offset_eq]
  have hlen : (m ++ [b]).length = m.length + 1 := List.length_append
  refine ⟨?hash, ?offset, ?tail⟩
  case offset => rw [offset_absorbByte, hs.offset_eq, hlen]; omega
  case hash =>
    rw [absorbByte_h, hoff, hs.hash_eq]
    by_cases hfull : m.length % 64 = 63
    · have hblock : (placeByte b s).buf = blockAt (m ++ [b]) (m.length / 64) := by
        ext1 i hi
        rw [hs.placeByte_buf b i hi (by omega), blockAt_getElem]
      rw [if_pos (by omega), chain_append_of_eq h m [b] (by simp [hfull]), hblock]
    · rw [if_neg (by omega), chain_append_of_lt h m [b] (by rw [List.length_singleton]; omega)]
  case tail =>
    intro i hi hlt
    have hdiv : (m ++ [b]).length / 64 = m.length / 64 := by omega
    rw [absorbByte_buf, hs.placeByte_buf b i hi (by omega), hdiv]

theorem Chained.after_absorbBytes (bs : List Byte) : Chained h (m ++ bs) (absorbBytes bs s) := by
  induction bs generalizing m s with
  | nil => simpa using hs
  | cons b bs ih => simpa using ih (hs.after_absorbByte b)

end

/-! ### FINALIZE -/

/-- The padding loop absorbs the zeros that are missing to offset 56 (42_finalize.md R82). -/
theorem padZeros_eq_absorbBytes (n : Nat) (s : State) (hn : (120 - offset s) % 64 ≤ n) :
    padZeros n s = absorbBytes (List.replicate ((120 - offset s) % 64) 0x00) s := by
  have hlt : offset s < 64 := Nat.mod_lt _ (by decide)
  induction n generalizing s with
  | zero => rw [Nat.le_zero.mp hn]; rfl
  | succ n ih =>
    rw [padZeros_succ]
    by_cases h56 : offset s = 56
    · rw [if_pos h56, h56]; rfl
    · have hnext : (120 - offset s) % 64 = (120 - offset (absorbByte 0x00 s)) % 64 + 1 := by
        rw [offset_absorbByte]; omega
      rw [if_neg h56, ih _ (by omega) (Nat.mod_lt _ (by decide)), hnext, List.replicate_succ, absorbBytes_cons]

/-- The padding bytes before the length field, for r = COUNT mod 64 (42_finalize.md R82). -/
def padBytes (r : Nat) : List Byte := 0x80 :: List.replicate ((119 - r) % 64) 0x00

@[simp] theorem padBytes_length (r : Nat) : (padBytes r).length = (119 - r) % 64 + 1 := by
  simp [padBytes]

/-- FINALIZE's 0x80 and its loop absorb the padding bytes. -/
theorem padZeros_absorbByte (s : State) :
    padZeros 64 (absorbByte 0x80 s) = absorbBytes (padBytes (offset s)) s := by
  have hlt : offset s < 64 := Nat.mod_lt _ (by decide)
  have hoff : (120 - offset (absorbByte 0x80 s)) % 64 = (119 - offset s) % 64 := by
    rw [offset_absorbByte]; omega
  rw [padZeros_eq_absorbBytes 64 _ (by omega), hoff, padBytes, absorbBytes_cons]

/-- `padded` in two parts: what is absorbed, and the length field of `writeLength` (42_finalize.md R82, R83). -/
theorem padded_eq (m : List Byte) :
    padded m = m ++ padBytes (m.length % 64) ++ (List.range 8).map (longByte (BitVec.ofNat 64 (8 * m.length))) := by
  simp [padded, padBytes, longByte]

/-- With the padding absorbed, the length field makes BUF the next block (42_finalize.md R83). -/
theorem Chained.lengthBlock_eq {h : Hash} {p : List Byte} {u : State} (hu : Chained h p u) (bc : Long)
    (h56 : p.length % 64 = 56) :
    lengthBlock bc u.buf = blockAt (p ++ (List.range 8).map (longByte bc)) (p.length / 64) := by
  ext1 i hi
  rw [blockAt_getElem]
  by_cases hlt : i < 56
  · rw [lengthBlock_getElem_lt bc _ i hlt, hu.tail_eq i hi (by omega), List.getD_append _ _ _ _ (by omega)]
  · have hidx : 64 * (p.length / 64) + i - p.length = i - 56 := by omega
    have hmem : i - 56 < ((List.range 8).map (longByte bc)).length := by simp; omega
    rw [lengthBlock_getElem_ge bc _ i (by omega) hi, List.getD_append_right _ _ _ _ (by omega), hidx,
      List.getD_eq_getElem _ _ hmem, List.getElem_map, List.getElem_range]

/-- FINALIZE leaves in H the hash chain of the padded message (42_finalize.md R80 to R85). -/
theorem Chained.finalizeEffect_h {h : Hash} {m : List Byte} {s : State} (hs : Chained h m s)
    (hcount : s.count = BitVec.ofNat 64 m.length) : (finalizeEffect s).h = chain h (padded m) := by
  let p := m ++ padBytes (m.length % 64)
  have h56 : p.length % 64 = 56 := by rw [List.length_append, padBytes_length]; omega
  have hbc : bitCount s.count = BitVec.ofNat 64 (8 * m.length) := by
    rw [bitCount, hcount, Nat.mul_comm, BitVec.ofNat_mul]; rfl
  have hu : Chained h p (absorbBytes (padBytes (m.length % 64)) s) := hs.after_absorbBytes _
  calc (finalizeEffect s).h
      = (compress (writeLength (bitCount s.count) (padZeros 64 (absorbByte 0x80 s)))).h := rfl
    _ = compressHash (chain h p) (lengthBlock (bitCount s.count) (absorbBytes (padBytes (m.length % 64)) s).buf) := by
        rw [compress_h_eq_compressHash, writeLength_h, writeLength_buf, padZeros_absorbByte, hs.offset_eq, hu.hash_eq]
    _ = compressHash (chain h p)
          (blockAt (p ++ (List.range 8).map (longByte (bitCount s.count))) (p.length / 64)) := by
        rw [hu.lengthBlock_eq _ h56]
    _ = chain h (p ++ (List.range 8).map (longByte (bitCount s.count))) :=
        (chain_append_of_eq h p _ (by rw [h56]; rfl)).symm
    _ = chain h (padded m) := by rw [padded_eq, hbc]

/-! ### Commands of latency 0 -/

theorem absorbLatency_zero (nb n : Nat) : absorbLatency Latency.zero nb n = 0 := by
  cases n <;> simp only [absorbLatency, Latency.zero, Vector.getElem?_replicate] <;> split <;> rfl

theorem finalizeLatency_zero (n : Nat) : finalizeLatency Latency.zero n = 0 := by
  match n with
  | 0 | 1 | _ + 2 => rfl

theorem exec_init_atomic {s : State} (hbusy : s.busy = false) (hlat : Atomic s) :
    exec .init s = .next (complete (initEffect (accept .init (clearErrors s)))) := by
  simp only [exec, execInit, hbusy, hlat]
  rfl

theorem exec_absorb_atomic {s : State} {nb : BitVec 3} (hbusy : s.busy = false) (hlat : Atomic s)
    (hlc : s.lc = .active) (hnb : nb.toNat ≤ 4) (hfit : s.count.toNat + nb.toNat ≤ 2 ^ 64 - 1) :
    exec (.absorb nb) s = .next (complete (absorbBytes (operandBytes s.dataIn nb.toNat) (accept (.absorb nb) s))) := by
  simp only [exec, execAbsorb, hbusy, hlc, hlat, absorbLatency_zero]
  rw [if_neg (by decide), if_neg (by omega), if_neg (by decide), if_neg (by omega)]
  rfl

theorem exec_finalize_atomic {s : State} (hbusy : s.busy = false) (hlat : Atomic s) (hlc : s.lc = .active) :
    exec .finalize s = .next (complete (finalizeEffect (accept .finalize s))) := by
  simp [exec, execFinalize, hbusy, hlc, hlat, finalizeLatency_zero]

theorem presentCommand_of_command {c : Word} {i : Instr} {s : State} (hbusy : s.busy = false)
    (hc : decode c = .command i) : presentCommand c s = exec i s := by
  simp [presentCommand, hbusy, hc]

theorem presentCommand_of_illegal {c : Word} {why : Illegal} {s : State} (hbusy : s.busy = false)
    (hc : decode c = .illegal why) : presentCommand c s = .next (raise .cmd s) := by
  simp [presentCommand, hbusy, hc]

/-- The decoder answers well-formed commands only (30_encoding.md R47, R48). -/
theorem wellFormed_of_decode {c : Word} {i : Instr} (h : decode c = .command i) : WellFormed i := by
  unfold decode at h
  split_ifs at h <;> cases h
  · rfl
  · rfl
  · exact decide_eq_true ‹_›
  · rfl

theorem toNat_le_of_decode_absorb {c : Word} {nb : BitVec 3} (h : decode c = .command (.absorb nb)) :
    nb.toNat ≤ 4 :=
  of_decide_eq_true (wellFormed_of_decode h)

/-! ### The words of a message -/

/-- Between INIT and FINALIZE with latency 0: no command runs and the next word of the message is taken. -/
structure Streaming (s : State) : Prop where
  idle : Idle s
  atomic : Atomic s
  lc_eq : s.lc = .active

theorem runWords_cons_of_next {v c : Word} {ws : List (Word × Word)} {s t : State}
    (h : presentCommand c (writeDataIn v s) = .next t) : runWords ((v, c) :: ws) s = runWords ws t := by
  rw [runWords, h]

theorem runWords_append_of_next {ws ws' : List (Word × Word)} {s t : State} (h : runWords ws s = .next t) :
    runWords (ws ++ ws') s = runWords ws' t := by
  induction ws generalizing s with
  | nil => cases h; rfl
  | cons p ws ih =>
    obtain ⟨v, c⟩ := p
    cases hp : presentCommand c (writeDataIn v s) with
    | next u => exact (runWords_cons_of_next hp).trans (ih ((runWords_cons_of_next hp).symm.trans h))
    | fault r => rw [runWords, hp] at h; cases h
    | refused r => rw [runWords, hp] at h; cases h

theorem bytesOf_illegal {v c : Word} {why : Illegal} (hc : decode c = .illegal why) : bytesOf (v, c) = [] := by
  simp only [bytesOf, hc]

theorem bytesOf_nop {v c : Word} (hc : decode c = .command .nop) : bytesOf (v, c) = [] := by
  simp only [bytesOf, hc]

theorem bytesOf_absorb {v c : Word} {nb : BitVec 3} (hc : decode c = .command (.absorb nb)) :
    bytesOf (v, c) = operandBytes v nb.toNat := by
  simp only [bytesOf, hc]
  rfl

@[simp] theorem operandBytes_length (v : Word) (n : Nat) : (operandBytes v n).length = n := by
  simp [operandBytes]

/-- An accepted ABSORB of latency 0 leaves the engine ready for the next word, with its bytes absorbed (40_commands.md
R58). -/
theorem Streaming.after_absorb {s : State} (hs : Streaming s) {nb : BitVec 3} (hnb : nb.toNat ≤ 4)
    (hfit : s.count.toNat + nb.toNat ≤ 2 ^ 64 - 1) :
    ∃ t, exec (.absorb nb) s = .next t ∧ Streaming t ∧
      SameMessage t (absorbBytes (operandBytes s.dataIn nb.toNat) s) := by
  obtain ⟨⟨hbusy, -, -⟩, hlat, hlc⟩ := hs
  refine ⟨_, exec_absorb_atomic hbusy hlat hlc hnb hfit, ?streaming, ?message⟩
  case streaming =>
    obtain ⟨-, hlc', -, -, -, -, hlat', -, -⟩ :=
      (absorbBytes_onlyMessageMoved (operandBytes s.dataIn nb.toNat) (accept (.absorb nb) s)).fields
    exact ⟨⟨rfl, rfl, rfl⟩, hlat'.trans hlat, hlc'.trans hlc⟩
  case message =>
    have haccept : SameMessage (accept (.absorb nb) s) s := ⟨rfl, rfl, rfl⟩
    obtain ⟨hh, hcount, hbuf⟩ := haccept.after_absorbBytes (operandBytes s.dataIn nb.toNat)
    exact ⟨hh, hcount, hbuf⟩

/-- One word of a message: the bytes of an accepted ABSORB go through absorb_byte, and any other word leaves the message
state alone (40_commands.md R61). -/
theorem Streaming.after_word {s : State} (hs : Streaming s) (v c : Word) (hinit : decode c ≠ .command .init)
    (hfin : decode c ≠ .command .finalize) (hfit : s.count.toNat + (bytesOf (v, c)).length ≤ 2 ^ 64 - 1) :
    ∃ t, presentCommand c (writeDataIn v s) = .next t ∧ Streaming t ∧
      SameMessage t (absorbBytes (bytesOf (v, c)) s) := by
  have hu : Streaming (writeDataIn v s) := ⟨hs.idle, hs.atomic, hs.lc_eq⟩
  have hbusy : (writeDataIn v s).busy = false := hu.idle.1
  have hsame : SameMessage (writeDataIn v s) s := ⟨rfl, rfl, rfl⟩
  cases hc : decode c with
  | illegal why =>
    rw [bytesOf_illegal hc]
    exact ⟨_, presentCommand_of_illegal hbusy hc, ⟨hu.idle, hu.atomic, hu.lc_eq⟩, rfl, rfl, rfl⟩
  | command i =>
    rw [presentCommand_of_command hbusy hc]
    cases i with
    | init => exact absurd hc hinit
    | finalize => exact absurd hc hfin
    | nop =>
      rw [bytesOf_nop hc]
      exact ⟨_, by rw [exec, execNop, hbusy]; rfl, hu, hsame⟩
    | absorb nb =>
      rw [bytesOf_absorb hc, operandBytes_length] at hfit
      rw [bytesOf_absorb hc]
      obtain ⟨t, ht, hst, hmt⟩ := hu.after_absorb (toNat_le_of_decode_absorb hc) hfit
      exact ⟨t, ht, hst, hmt.trans (hsame.after_absorbBytes _)⟩

/-- Any words of a message act on H, COUNT and BUF as absorb_byte on the concatenated bytes (40_commands.md R61). -/
theorem Streaming.after_words {s : State} (hs : Streaming s) (ws : List (Word × Word)) (hw : WithinMessage ws)
    (hfit : s.count.toNat + (messageOf ws).length ≤ 2 ^ 64 - 1) :
    ∃ t, runWords ws s = .next t ∧ Streaming t ∧ SameMessage t (absorbBytes (messageOf ws) s) := by
  induction ws generalizing s with
  | nil => exact ⟨s, rfl, hs, rfl, rfl, rfl⟩
  | cons p ws ih =>
    obtain ⟨v, c⟩ := p
    have hmsg : messageOf ((v, c) :: ws) = bytesOf (v, c) ++ messageOf ws := List.flatMap_cons
    rw [hmsg, List.length_append] at hfit
    obtain ⟨⟨hinit, hfin⟩, hrest⟩ : (decode c ≠ .command .init ∧ decode c ≠ .command .finalize) ∧ WithinMessage ws := by
      simpa [WithinMessage] using hw
    obtain ⟨u, hu, hsu, hmu⟩ := hs.after_word v c hinit hfin (by omega)
    have hcount : u.count.toNat = s.count.toNat + (bytesOf (v, c)).length := by
      rw [hmu.count_eq, absorbBytes_count, BitVec.toNat_add, BitVec.toNat_ofNat]; omega
    obtain ⟨t, ht, hst, hmt⟩ := ih hsu hrest (by omega)
    refine ⟨t, (runWords_cons_of_next hu).trans ht, hst, ?_⟩
    rw [hmsg, absorbBytes_append]
    exact hmt.trans (hmu.after_absorbBytes _)

/-- INIT starts a message in any idle engine (40_commands.md R57). -/
theorem presentCommand_init_atomic {s : State} (hs : Idle s) (hlat : Atomic s) :
    ∃ t, presentCommand 0x00000001 s = .next t ∧ Streaming t ∧ t.h = IV ∧ t.count = 0 :=
  ⟨_, (presentCommand_of_command hs.1 (by decide)).trans (exec_init_atomic hs.1 hlat), ⟨⟨rfl, rfl, rfl⟩, hlat, rfl⟩,
    rfl, rfl⟩

/-- FINALIZE after the message bytes `m` leaves the hash chain of the padded message in H (42_finalize.md R80). -/
theorem Streaming.after_finalize {h : Hash} {m : List Byte} {s : State} (hs : Streaming s)
    (hm : Chained h m s) (hcount : s.count = BitVec.ofNat 64 m.length) :
    ∃ t, presentCommand 0x00000003 s = .next t ∧ t.lc = .done ∧ t.busy = false ∧ t.h = chain h (padded m) := by
  obtain ⟨⟨hbusy, -, -⟩, hlat, hlc⟩ := hs
  refine ⟨_, (presentCommand_of_command hbusy (by decide)).trans (exec_finalize_atomic hbusy hlat hlc), rfl, rfl, ?_⟩
  exact (hm.of_sameMessage (t := accept .finalize s) ⟨rfl, rfl, rfl⟩).finalizeEffect_h hcount

/-! ### DIGEST -/

/-- The offset of DIGESTk (20_memory.md R32). -/
theorem regAt_digest (k : Fin 8) : regAt (0x10 + 4 * k.val) = .digest k := by
  revert k
  decide

/-- Once the message is consumed, DIGESTk reads H[k] (10_state.md R26). -/
theorem memRead_digest {s : State} (hlc : s.lc = .done) (hbusy : s.busy = false) (k : Fin 8) :
    memRead (0x10 + 4 * k.val) s = s.h[k] := by
  rw [memRead, regAt_digest, busRead, digestReg, if_pos ⟨hlc, hbusy⟩]

/-- Settles O20: INIT starts the hash chain at IV, the words of the message carry it on over their bytes, and FINALIZE
closes it over the padding; `sha256` is the same chain over the padded byte string. -/
theorem digestIsSha256OfTheMessage : Obligations.DigestIsSha256OfTheMessage := by
  unfold Obligations.DigestIsSha256OfTheMessage
  intro s ws hidle hlat hw hlen
  obtain ⟨a, ha, hsa, hIV, hzero⟩ := presentCommand_init_atomic (s := writeDataIn 0 s) hidle hlat
  obtain ⟨b, hb, hsb, hmb⟩ := hsa.after_words ws hw (by simpa [hzero] using hlen)
  have hstart : Chained IV [] a := hIV ▸ Chained.nil (by simp [offset, hzero])
  have hchain : Chained IV (messageOf ws) b := (hstart.after_absorbBytes (messageOf ws)).of_sameMessage hmb
  have hcount : b.count = BitVec.ofNat 64 (messageOf ws).length := by
    rw [hmb.count_eq, absorbBytes_count, hzero]; exact BitVec.zero_add _
  obtain ⟨t, ht, hlc, hbusy, hh⟩ := Streaming.after_finalize (s := writeDataIn 0 b)
    ⟨hsb.idle, hsb.atomic, hsb.lc_eq⟩ (hchain.of_sameMessage ⟨rfl, rfl, rfl⟩) hcount
  refine ⟨t, ?_, hlc, hbusy, fun k => ?_⟩
  · calc runWords ((0, 0x00000001) :: ws ++ [(0, 0x00000003)]) s
        = runWords (ws ++ [(0, 0x00000003)]) a := runWords_cons_of_next ha
      _ = runWords [(0, 0x00000003)] b := runWords_append_of_next hb
      _ = .next t := runWords_cons_of_next ht
  · rw [memRead_digest hlc hbusy, hh, sha256_eq_chain]

end Sys2Proof.Machine

end

section
/-! SUPPORT for O46, O39 and O53: what one step can do, said once, with the reason of every outcome. -/

namespace Sys2Proof.Machine

/-! ### The outcomes of a presented word and of a step -/

/-- What a CMD write of the word `c` does at `s`, with what must hold for it (40_commands.md R56, 60_exceptions.md R92).
`presentCommand_outcome` ties it to the model. -/
inductive CommandOutcome (c : Word) (s : State) : State → Prop
  | busyError (hb : s.busy = true) : CommandOutcome c s (raise .busy s)
  | illegal (hb : s.busy = false) : CommandOutcome c s (raise .cmd s)
  | sequenceError (hb : s.busy = false) : CommandOutcome c s (raise .seq s)
  | overflow (nb : BitVec 3) (hb : s.busy = false) (hc : decode c = .command (.absorb nb)) (hlc : s.lc = .active)
      (hcount : 2 ^ 64 - 1 < s.count.toNat + nb.toNat) : CommandOutcome c s (raise .ovf s)
  | nop (hb : s.busy = false) : CommandOutcome c s s
  | init (n : Nat) (hb : s.busy = false) (hc : decode c = .command .init) :
      CommandOutcome c s (runAccepted n .init initEffect (clearErrors s))
  | absorb (n : Nat) (nb : BitVec 3) (hb : s.busy = false) (hlc : s.lc = .active) (hnb : nb.toNat ≤ 4) :
      CommandOutcome c s (runAccepted n (.absorb nb) (absorbEffect nb.toNat) s)
  | finalize (n : Nat) (hb : s.busy = false) (hc : decode c = .command .finalize) (hlc : s.lc = .active) :
      CommandOutcome c s (runAccepted n .finalize finalizeEffect s)

/-- With BUSY = 0 a command's checks stand in the order of R92. -/
theorem exec_outcome {c : Word} {i : Instr} {s t : State} (hb : s.busy = false) (hc : decode c = .command i)
    (h : exec i s = .next t) : CommandOutcome c s t := by
  cases i with
  | nop =>
    simp only [exec, execNop, hb, Bool.false_eq_true, if_false] at h
    cases h
    exact .nop hb
  | init =>
    simp only [exec, execInit, hb, Bool.false_eq_true, if_false] at h
    cases h
    exact .init _ hb hc
  | absorb nb =>
    simp only [exec, execAbsorb, hb, Bool.false_eq_true, if_false] at h
    split_ifs at h with hnb hlc hcount
    · cases h; exact .illegal hb
    · cases h; exact .sequenceError hb
    · cases h; exact .overflow nb hb hc (not_not.mp hlc) hcount
    · cases h; exact .absorb _ nb hb (not_not.mp hlc) (Nat.not_lt.mp hnb)
  | finalize =>
    simp only [exec, execFinalize, hb, Bool.false_eq_true, if_false] at h
    split_ifs at h with hlc
    · cases h; exact .sequenceError hb
    · cases h; exact .finalize _ hb hc (not_not.mp hlc)

theorem presentCommand_outcome {c : Word} {s t : State} (h : presentCommand c s = .next t) : CommandOutcome c s t := by
  obtain ⟨hb, hp⟩ | ⟨hb, -, hp⟩ | ⟨hb, i, hc, hp⟩ := presentCommand_cases c s
  · cases hp.symm.trans h; exact .busyError hb
  · cases hp.symm.trans h; exact .illegal hb
  · exact exec_outcome hb hc (hp.symm.trans h)

/-- What one step does at `s`: the reset, an engine step, a host statement that presents no command (it writes at most
DATA_IN and the host's own state), or a presented command. `step_outcome` ties it to the model. -/
inductive StepOutcome (s : State) : State → Prop
  | reset (hr : resetMoves s = true) : StepOutcome s (resetBlock (withTurns (laterTurns s) s))
  | engine (hr : resetMoves s = false) (hh : hostMoves s = false) :
      StepOutcome s (engineStep (withTurns (laterTurns s) s))
  | noCommand (v : Word) (a : HostAgent) : StepOutcome s { s with dataIn := v, turns := laterTurns s, host := a }
  | command {t : State} (c : Word) (rest : List Stmt) (hp : HostPresents c s)
      (hc : CommandOutcome c (withProgram rest (withTurns (laterTurns s) s)) t) : StepOutcome s t

/-- CMD has one admitted access (20_memory.md R32, R33). -/
theorem eq_ofReg_cmd {a : Access} (ha : a.admitted = true) (hr : regAt a.off = .cmd) : a = Access.ofReg .cmd := by
  obtain ⟨off, bytes⟩ := a
  obtain ⟨hbytes, -, -⟩ := of_decide_eq_true ha
  have hoff : off = 0 := by
    unfold regAt at hr
    split_ifs at hr
    assumption
  simp_all [Access.ofReg, Reg.offset]

/-- A host's turn writes at most DATA_IN and the host's own state, or presents a command. -/
theorem hostTurn_outcome {s t : State} (h : hostTurn s = .next t) :
    (∃ v a, t = { s with dataIn := v, host := a }) ∨
    ∃ c rest, s.host.program = wr .cmd c :: rest ∧ CommandOutcome c (withProgram rest s) t := by
  obtain ⟨-, ht⟩ | ⟨a, v, rest, hp, ⟨ha, ht⟩ | ⟨-, ht⟩⟩ | ⟨a, x, rest, -, ⟨-, ht⟩ | ⟨-, ht⟩⟩ |
    ⟨rest, -, ⟨-, ht⟩ | ⟨-, ht⟩⟩ | ⟨x, v, rest, -, ht⟩ := hostTurn_cases s <;> have ht := ht.symm.trans h
  case inr.inl.inl =>
    by_cases hr : regAt a.off = .cmd
    · rw [hr] at ht
      rw [eq_ofReg_cmd ha hr] at hp
      exact .inr ⟨v, rest, hp, presentCommand_outcome ht⟩
    · rw [busWrite_of_ne_cmd hr] at ht
      split at ht <;> cases ht <;> exact .inl ⟨_, _, rfl⟩
  all_goals cases ht
  all_goals exact .inl ⟨_, _, rfl⟩

theorem step_outcome {s t : State} (h : step s = .next t) : StepOutcome s t := by
  obtain ⟨hr, ht⟩ | ⟨hr, hh, ht⟩ | ⟨-, hh, ht⟩ := step_cases s <;> have ht := ht.symm.trans h
  · cases ht; exact .reset hr
  · cases ht; exact .engine hr hh
  · obtain ⟨v, a, rfl⟩ | ⟨c, rest, hp, hc⟩ := hostTurn_outcome ht
    · exact .noCommand v a
    · exact .command c rest ⟨hh, rest, hp⟩ hc

end Sys2Proof.Machine
end

section
/-! SUPPORT for O46: the places of a running command as propositions, and how each engine step moves between them. -/

namespace Sys2Proof.Machine

/-! ### The invariant, by BUSY -/

theorem engineInv_of_rest {s : State} (hb : s.busy = false) (hrest : s.seq = Seq.rest ∧ s.latch = Latch.rest) :
    EngineInv s := by
  rw [EngineInv, if_neg (by simp [hb])]
  exact hrest

theorem engineInv_of_running {s : State} (hb : s.busy = true) (hplace : runningPlace s = true) : EngineInv s := by
  rw [EngineInv, if_pos hb]
  exact hplace

theorem EngineInv.rest {s : State} (h : EngineInv s) (hb : s.busy = false) :
    s.seq = Seq.rest ∧ s.latch = Latch.rest := by
  rwa [EngineInv, if_neg (by simp [hb])] at h

theorem EngineInv.running {s : State} (h : EngineInv s) (hb : s.busy = true) : runningPlace s = true := by
  rwa [EngineInv, if_pos hb] at h

theorem engineInv_complete (s : State) : EngineInv (complete s) := engineInv_of_rest rfl ⟨rfl, rfl⟩

/-- The invariant reads BUSY, SEQ, the latch, LC and COUNT only. -/
theorem EngineInv.congr {s t : State} (h : EngineInv s) (hbusy : t.busy = s.busy) (hseq : t.seq = s.seq)
    (hlatch : t.latch = s.latch) (hlc : t.lc = s.lc) (hcount : t.count = s.count) : EngineInv t := by
  cases s
  cases t
  subst hbusy hseq hlatch hlc hcount
  exact h

/-! ### Places -/

/-- The places of a COMPRESS (41_compression.md R77). -/
theorem inCompress_iff (q : Seq) :
    inCompress q = true ↔
      q = ⟨.sched, 0⟩ ∨ (∃ t, q = ⟨.sched, t⟩ ∧ 16 ≤ t.val) ∨ (∃ t, q = ⟨.round, t⟩) ∨ q = ⟨.feed, 0⟩ := by
  obtain ⟨phase, t⟩ := q
  cases phase <;> simp [inCompress]

theorem phase_of_inCompress {q : Seq} (h : inCompress q = true) :
    q.phase ≠ .idle ∧ q.phase ≠ .absorb ∧ q.phase ≠ .pad := by
  obtain ⟨phase, t⟩ := q
  cases phase <;> simp_all [inCompress]

/-- Where an INIT runs (log entry 5). -/
theorem runningPlace_init {s : State} (hop : s.latch.op = .init) :
    runningPlace s = true ↔ s.seq = ⟨.absorb, 0⟩ := by
  simp [runningPlace, hop]

/-- Where an ABSORB nb runs: before a byte or its completion, or in the compression after a byte that filled the block.
`runningPlace_absorb` ties it to the model. -/
def AbsorbAt (nb : Nat) (s : State) : Prop :=
  (nb ≤ 4 ∧ s.lc = .active) ∧
    ((s.seq.phase = .absorb ∧ s.seq.t.val ≤ nb) ∨
     (inCompress s.seq = true ∧ offset s = 0 ∧
      ∃ q, s.latch.resume = some q ∧ q.phase = .absorb ∧ 1 ≤ q.t.val ∧ q.t.val ≤ nb))

theorem runningPlace_absorb {s : State} {nb : BitVec 3} (hop : s.latch.op = .absorb nb) :
    runningPlace s = true ↔ AbsorbAt nb.toNat s := by
  cases hq : s.latch.resume <;> simp [runningPlace, absorbPlace, AbsorbAt, hop, hq, and_assoc]

/-- Where a FINALIZE runs: before a padding byte, in a compression inside the padding, or in the last one.
`runningPlace_finalize` ties it to the model. -/
def FinalizeAt (s : State) : Prop :=
  s.lc = .active ∧
    ((s.seq.phase = .pad ∧ padRoom s.seq.t (offset s) = true) ∨
     (inCompress s.seq = true ∧
      ((∃ q, s.latch.resume = some q ∧ q.phase = .pad ∧ q.t ≠ 0 ∧ offset s = 0 ∧ padRoom q.t 0 = true) ∨
       (s.latch.resume = none ∧ offset s = 56))))

theorem runningPlace_finalize {s : State} (hop : s.latch.op = .finalize) :
    runningPlace s = true ↔ FinalizeAt s := by
  cases hq : s.latch.resume <;> simp [runningPlace, finalizePlace, FinalizeAt, hop, hq, and_assoc]

theorem engineInv_of_absorbAt {s : State} {nb : BitVec 3} (hb : s.busy = true) (hop : s.latch.op = .absorb nb)
    (h : AbsorbAt nb.toNat s) : EngineInv s :=
  engineInv_of_running hb ((runningPlace_absorb hop).mpr h)

theorem engineInv_of_finalizeAt {s : State} (hb : s.busy = true) (hop : s.latch.op = .finalize) (h : FinalizeAt s) :
    EngineInv s :=
  engineInv_of_running hb ((runningPlace_finalize hop).mpr h)

/-! ### Inside a COMPRESS -/

/-- Until (FEED, 0) a COMPRESS stays inside itself and moves SEQ, W and a..h only. -/
theorem engineStep_of_inCompress {s : State} (h : inCompress s.seq = true) (hfeed : s.seq ≠ ⟨.feed, 0⟩) :
    inCompress (engineStep s).seq = true ∧
      engineStep s = { s with w := (engineStep s).w, work := (engineStep s).work, seq := (engineStep s).seq } := by
  obtain hq | ⟨t, hq, ht⟩ | ⟨t, hq⟩ | hq := (inCompress_iff _).mp h
  · rw [engineStep_sched_zero hq]; exact ⟨rfl, rfl⟩
  · rw [engineStep_sched hq ht]
    refine ⟨?_, rfl⟩
    by_cases hlast : t.val = 63
    · simp [hlast, inCompress]
    · have hsucc : 16 ≤ (t + 1).val := by rw [Fin.val_add_one_of_lt' (by omega)]; omega
      simp [hlast, inCompress, hsucc]
  · rw [engineStep_round hq]
    refine ⟨?_, rfl⟩
    by_cases hlast : t.val = 63 <;> simp [hlast, inCompress]
  · exact absurd hq hfeed

/-- Inside a COMPRESS the place does not matter to the invariant. -/
theorem runningPlace_of_inCompress {s t : State} (hs : inCompress s.seq = true) (ht : inCompress t.seq = true)
    (hlatch : t.latch = s.latch) (hlc : t.lc = s.lc) (hcount : t.count = s.count) (h : runningPlace s = true) :
    runningPlace t = true := by
  have hoff : offset t = offset s := by rw [offset, offset, hcount]
  obtain ⟨-, habsorb, hpad⟩ := phase_of_inCompress hs
  obtain ⟨-, habsorb', hpad'⟩ := phase_of_inCompress ht
  cases hop : s.latch.op with
  | nop => simp [runningPlace, hop] at h
  | init =>
    rw [runningPlace_init hop] at h
    exact absurd (congrArg Seq.phase h) habsorb
  | absorb nb =>
    rw [runningPlace_absorb hop, AbsorbAt] at h
    rw [runningPlace_absorb (hlatch ▸ hop), AbsorbAt, hlc, hlatch, hoff]
    simpa [hs, ht, habsorb, habsorb'] using h
  | finalize =>
    rw [runningPlace_finalize hop, FinalizeAt] at h
    rw [runningPlace_finalize (hlatch ▸ hop), FinalizeAt, hlc, hlatch, hoff]
    simpa [hs, ht, hpad, hpad'] using h

end Sys2Proof.Machine
end

section
/-! SUPPORT for O46: every step keeps the invariant. -/

namespace Sys2Proof.Machine

/-! ### One engine step of a running command -/

/-- A padding byte that does not reach offset 56 leaves room for the zeros still missing (42_finalize.md R82). -/
theorem padRoom_succ {t : Fin 64} {off : Nat} (h : padRoom t off = true) (hoff : off < 64) (h56 : (off + 1) % 64 ≠ 56) :
    t + 1 ≠ 0 ∧ padRoom (t + 1) ((off + 1) % 64) = true := by
  have hroom : t = 0 ∨ off ≠ 56 ∧ t.val + (120 - off) % 64 ≤ 64 := of_decide_eq_true h
  have hlt : t.val + 1 < 64 := by
    obtain rfl | ⟨h56', hle⟩ := hroom
    · decide
    · omega
  have hval : (t + 1).val = t.val + 1 := Fin.val_add_one_of_lt' hlt
  refine ⟨fun h0 => by simp [h0] at hval, decide_eq_true (.inr ⟨h56, ?_⟩)⟩
  rw [hval]
  obtain rfl | ⟨h56', hle⟩ := hroom
  · simp only [Fin.val_zero]; omega
  · omega

/-- Taking the bit count leaves the running command alone (42_finalize.md R81). -/
@[simp] theorem takeBitCount_latch_op (s : State) : (takeBitCount s).latch.op = s.latch.op := by
  unfold takeBitCount; split <;> rfl

section
variable {s : State} (hb : s.busy = true)
include hb

/-- (ABSORB, t) of an ABSORB: the next byte, the compression of a full block, or the completion. -/
theorem engineInv_engineStep_absorb {nb : BitVec 3} (hop : s.latch.op = .absorb nb) (hnb : nb.toNat ≤ 4)
    (hlc : s.lc = .active) (hphase : s.seq.phase = .absorb) (ht : s.seq.t.val ≤ nb.toNat) :
    EngineInv (engineStep s) := by
  have hseq : s.seq = ⟨.absorb, s.seq.t⟩ := by rw [← hphase]
  by_cases hlt : s.seq.t.val < nb.toNat
  · have hval : (s.seq.t + 1).val = s.seq.t.val + 1 := Fin.val_add_one_of_lt' (by omega)
    rw [engineStep_absorb_byte hseq hop hlt]
    split
    · refine engineInv_of_absorbAt hb hop ⟨⟨hnb, hlc⟩, .inr ⟨rfl, ‹_›, _, rfl, rfl, ?_⟩⟩
      rw [hval]; omega
    · refine engineInv_of_absorbAt hb hop ⟨⟨hnb, hlc⟩, .inl ⟨rfl, ?_⟩⟩
      rw [goto_seq, hval]; omega
  · rw [engineStep_absorb_end hseq hop (by omega)]
    exact engineInv_complete s

/-- (PAD, t): the next padding byte, the compression of a full block, or the last compression. -/
theorem engineInv_engineStep_pad (hop : s.latch.op = .finalize) (hlc : s.lc = .active) (hphase : s.seq.phase = .pad)
    (hroom : padRoom s.seq.t (offset s) = true) : EngineInv (engineStep s) := by
  have hseq : s.seq = ⟨.pad, s.seq.t⟩ := by rw [← hphase]
  have hlt : offset s < 64 := Nat.mod_lt _ (by decide)
  obtain ⟨u, hu⟩ : ∃ u, u = placeByte (padByte s.seq.t) (takeBitCount s) := ⟨_, rfl⟩
  have hoff : offset u = (offset s + 1) % 64 := by rw [hu, offset_placeByte, offset, offset, takeBitCount_count]
  have hub : u.busy = true := by rw [hu, placeByte_busy, takeBitCount_busy, hb]
  have hulc : u.lc = .active := by rw [hu, placeByte_lc, takeBitCount_lc, hlc]
  have huop : u.latch.op = .finalize := by rw [hu, placeByte_latch, takeBitCount_latch_op, hop]
  rw [engineStep_pad hseq hop]
  simp only [← hu]
  split
  case isTrue h0 =>
    obtain ⟨hne, hroom'⟩ := padRoom_succ hroom hlt (by omega)
    rw [← hoff, h0] at hroom'
    exact engineInv_of_finalizeAt hub huop ⟨hulc, .inr ⟨rfl, .inl ⟨_, rfl, rfl, hne, h0, hroom'⟩⟩⟩
  case isFalse =>
    split
    case isTrue h56 =>
      exact engineInv_of_finalizeAt hub huop ⟨hulc, .inr ⟨rfl, .inr ⟨rfl, h56⟩⟩⟩
    case isFalse h56 =>
      obtain ⟨-, hroom'⟩ := padRoom_succ hroom hlt (hoff ▸ h56)
      rw [← hoff] at hroom'
      exact engineInv_of_finalizeAt hub huop ⟨hulc, .inl ⟨rfl, hroom'⟩⟩

/-- (FEED, 0): back to the place the command captured, or FINALIZE's completion. -/
theorem engineInv_engineStep_feed (hfeed : s.seq = ⟨.feed, 0⟩) (h : runningPlace s = true) :
    EngineInv (engineStep s) := by
  cases hq : s.latch.resume with
  | none => rw [engineStep_feed_none hfeed hq]; exact engineInv_complete _
  | some q =>
    rw [engineStep_feed_some hfeed hq]
    cases hop : s.latch.op with
    | nop => simp [runningPlace, hop] at h
    | init => simp [runningPlace_init hop, hfeed] at h
    | absorb nb =>
      obtain ⟨hacc, ⟨hphase, -⟩ | ⟨-, -, q', hq', hphase, -, hle⟩⟩ := (runningPlace_absorb hop).mp h
      · simp [hfeed] at hphase
      · cases hq.symm.trans hq'
        exact engineInv_of_absorbAt hb hop ⟨hacc, .inl ⟨hphase, hle⟩⟩
    | finalize =>
      obtain ⟨hlc, ⟨hphase, -⟩ | ⟨-, ⟨q', hq', hphase, -, h0, hroom⟩ | ⟨hnone, -⟩⟩⟩ := (runningPlace_finalize hop).mp h
      · simp [hfeed] at hphase
      · cases hq.symm.trans hq'
        have hroom' : padRoom q.t (offset s) = true := h0.symm ▸ hroom
        exact engineInv_of_finalizeAt hb hop ⟨hlc, .inl ⟨hphase, hroom'⟩⟩
      · cases hq.symm.trans hnone

/-- Any place of a COMPRESS. -/
theorem engineInv_engineStep_compress (hin : inCompress s.seq = true) (h : runningPlace s = true) :
    EngineInv (engineStep s) := by
  by_cases hfeed : s.seq = ⟨.feed, 0⟩
  · exact engineInv_engineStep_feed hb hfeed h
  · obtain ⟨hin', hstep⟩ := engineStep_of_inCompress hin hfeed
    refine engineInv_of_running (by rw [hstep]; exact hb) (runningPlace_of_inCompress hin hin' ?_ ?_ ?_ h)
    all_goals rw [hstep]

end

/-- An engine step keeps the invariant: by the running command, and by its places. -/
theorem EngineInv.after_engineStep {s : State} (h : EngineInv s) : EngineInv (engineStep s) := by
  cases hb : s.busy with
  | false =>
    rw [engineStep_of_idle (by rw [(h.rest hb).1]; rfl)]
    exact h
  | true =>
    have hplace := h.running hb
    cases hop : s.latch.op with
    | nop => simp [runningPlace, hop] at hplace
    | init =>
      rw [engineStep_init ((runningPlace_init hop).mp hplace) hop]
      exact engineInv_complete _
    | absorb nb =>
      obtain ⟨⟨hnb, hlc⟩, ⟨hphase, ht⟩ | ⟨hin, -⟩⟩ := (runningPlace_absorb hop).mp hplace
      · exact engineInv_engineStep_absorb hb hop hnb hlc hphase ht
      · exact engineInv_engineStep_compress hb hin hplace
    | finalize =>
      obtain ⟨hlc, ⟨hphase, hroom⟩ | ⟨hin, -⟩⟩ := (runningPlace_finalize hop).mp hplace
      · exact engineInv_engineStep_pad hb hop hlc hphase hroom
      · exact engineInv_engineStep_compress hb hin hplace

/-! ### The other steps -/

/-- An accepted command is at rest again or at its first place. -/
theorem engineInv_runAccepted {n : Nat} {d : Instr} {f : State → State} {s : State}
    (hplace : runningPlace (accept d s) = true) : EngineInv (runAccepted n d f s) := by
  obtain ⟨-, h⟩ | ⟨-, h⟩ := runAccepted_cases n d f s <;> rw [h]
  · exact engineInv_complete _
  · exact engineInv_of_running rfl hplace

/-- A presented word keeps the invariant. -/
theorem EngineInv.after_command {c : Word} {s t : State} (h : EngineInv s) (hc : CommandOutcome c s t) :
    EngineInv t := by
  cases hc with
  | busyError hb => exact h.congr rfl rfl rfl rfl rfl
  | illegal hb => exact engineInv_of_rest hb (h.rest hb)
  | sequenceError hb => exact engineInv_of_rest hb (h.rest hb)
  | overflow nb hb => exact engineInv_of_rest hb (h.rest hb)
  | nop hb => exact h
  | init n hb => exact engineInv_runAccepted rfl
  | absorb n nb hb hlc hnb =>
    exact engineInv_runAccepted ((runningPlace_absorb rfl).mpr ⟨⟨hnb, hlc⟩, .inl ⟨rfl, Nat.zero_le _⟩⟩)
  | finalize n hb hc hlc => exact engineInv_runAccepted ((runningPlace_finalize rfl).mpr ⟨hlc, .inl ⟨rfl, rfl⟩⟩)

/-- Every step keeps the invariant (10_state.md R19, R21). -/
theorem EngineInv.after_step {s t : State} (h : EngineInv s) (ht : step s = .next t) : EngineInv t := by
  cases step_outcome ht with
  | reset hr => exact engineInv_of_rest rfl ⟨rfl, rfl⟩
  | engine hr hh => exact EngineInv.after_engineStep (h.congr rfl rfl rfl rfl rfl)
  | noCommand v a => exact h.congr rfl rfl rfl rfl rfl
  | command c rest hp hc =>
    have hu : EngineInv (withProgram rest (withTurns (laterTurns s) s)) := h.congr rfl rfl rfl rfl rfl
    exact hu.after_command hc

/-- A running command is never at IDLE. -/
theorem phase_ne_idle_of_runningPlace {s : State} (h : runningPlace s = true) : s.seq.phase ≠ .idle := by
  cases hop : s.latch.op with
  | nop => simp [runningPlace, hop] at h
  | init => simp [(runningPlace_init hop).mp h]
  | absorb nb =>
    obtain ⟨-, ⟨hphase, -⟩ | ⟨hin, -⟩⟩ := (runningPlace_absorb hop).mp h
    · simp [hphase]
    · exact (phase_of_inCompress hin).1
  | finalize =>
    obtain ⟨-, ⟨hphase, -⟩ | ⟨hin, -⟩⟩ := (runningPlace_finalize hop).mp h
    · simp [hphase]
    · exact (phase_of_inCompress hin).1

theorem EngineInv.idle_iff {s : State} (h : EngineInv s) : s.seq.phase = .idle ↔ s.busy = false := by
  cases hb : s.busy with
  | false => simp [(h.rest hb).1, Seq.rest]
  | true => simp [phase_ne_idle_of_runningPlace (h.running hb)]

/-- Settles O46: each of the outcomes of a step keeps the invariant, and the invariant places SEQ out of IDLE exactly
while a command runs. -/
theorem stepKeepsTheEngineInvariant : Obligations.StepKeepsTheEngineInvariant := by
  unfold Obligations.StepKeepsTheEngineInvariant
  intro s t h ht
  exact ⟨h.after_step ht, (h.after_step ht).idle_iff⟩

end Sys2Proof.Machine
end

section
/-! SUPPORT for O31, O36 and O39: the views the host reads (10_state.md R23, R24, R26, R28). -/

namespace Sys2Proof.Machine

/-- STATUS is made of BUSY, LC and the error bits (10_state.md R24): the fields do not overlap, and the bits between
them are 0. -/
theorem status_fields (s : State) :
    (status s).extractLsb' 0 1 = BitVec.ofBool s.busy ∧
    (status s).extractLsb' 1 2 = s.lc.code ∧
    (status s).extractLsb' 3 5 = 0 ∧
    (status s).extractLsb' 8 1 = BitVec.ofBool s.errCmd ∧
    (status s).extractLsb' 9 1 = BitVec.ofBool s.errSeq ∧
    (status s).extractLsb' 10 1 = BitVec.ofBool s.errOvf ∧
    (status s).extractLsb' 11 1 = BitVec.ofBool s.errBusy ∧
    (status s).extractLsb' 12 20 = 0 := by
  unfold status
  generalize s.busy = b, s.errCmd = cmd, s.errSeq = sequ, s.errOvf = ovf, s.errBusy = rej
  cases s.lc <;> revert b cmd sequ ovf rej <;> decide

/-- Settles O31: the fields of STATUS, with LC's code written out. -/
theorem statusLayout : Obligations.StatusLayout := by
  unfold Obligations.StatusLayout
  exact status_fields

/-- What the host reads is made of STATUS, DATA_IN and, once LC = DONE, H (10_state.md R28). -/
theorem memRead_congr {s t : State} (hstatus : status s = status t) (hdataIn : s.dataIn = t.dataIn)
    (hlc : s.lc = t.lc) (hbusy : s.busy = t.busy) (hdone : s.lc = .done → s.h = t.h) (off : Nat) :
    memRead off s = memRead off t := by
  have hdigest (k : Fin 8) : digestReg s k = digestReg t k := by
    rw [digestReg, digestReg, ← hlc, ← hbusy]
    by_cases h : s.lc = .done
    · rw [hdone h]
    · simp [h]
  unfold memRead
  cases regAt off with
  | cmd => rfl
  | status => exact hstatus
  | dataIn => exact hdataIn
  | digest k => exact hdigest k
  | reserved => rfl

/-- What states equal outside the message and transform state have in common (10_state.md §3). -/
theorem SameOutside.views {s t : State} (h : SameOutside s t) :
    status s = status t ∧ s.dataIn = t.dataIn ∧ s.lc = t.lc ∧ s.busy = t.busy ∧ s.lat = t.lat := by
  rw [← h]
  exact ⟨rfl, rfl, rfl, rfl, rfl⟩

/-- Settles O36: the two states have the same STATUS, DATA_IN, LC and BUSY. -/
theorem hostSeesTheInterfaceOnly : Obligations.HostSeesTheInterfaceOnly := by
  unfold Obligations.HostSeesTheInterfaceOnly
  intro s t off h hdone
  obtain ⟨hstatus, hdataIn, hlc, hbusy, -⟩ := h.views
  exact memRead_congr hstatus hdataIn hlc hbusy hdone off

end Sys2Proof.Machine
end

section
/-! SUPPORT for O33, O39 and O53: what an engine step leaves alone, and how LC moves in one step (10_state.md R20,
R24). -/

namespace Sys2Proof.Machine

/-! ### An engine step -/

/-- `t` differs from `s` in the message and transform state, SEQ, LC, BUSY and the latch only. -/
def OnlyEngineMoved (s t : State) : Prop :=
  t = { s with
    h := t.h, count := t.count, buf := t.buf, w := t.w, work := t.work
    seq := t.seq, lc := t.lc, busy := t.busy, latch := t.latch }

theorem takeBitCount_onlyEngineMoved (s : State) : OnlyEngineMoved s (takeBitCount s) := by
  unfold takeBitCount
  split <;> rfl

theorem padPhase_onlyEngineMoved (s : State) : OnlyEngineMoved s (padPhase s) := by
  have h := takeBitCount_onlyEngineMoved s
  unfold padPhase
  split
  · dsimp only
    rw [h]
    split_ifs <;> rfl
  all_goals rfl

theorem absorbPhase_onlyEngineMoved (s : State) : OnlyEngineMoved s (absorbPhase s) := by
  unfold absorbPhase
  split
  case h_2 nb =>
    dsimp only
    split_ifs <;> rfl
  all_goals rfl

/-- An engine step never touches DATA_IN, an error bit, the parameters, the turns or the host. -/
theorem engineStep_onlyEngineMoved (s : State) : OnlyEngineMoved s (engineStep s) := by
  unfold engineStep
  split
  · rfl
  · exact absorbPhase_onlyEngineMoved s
  · exact padPhase_onlyEngineMoved s
  · unfold schedPhase
    split_ifs <;> rfl
  · rfl
  · unfold feedPhase
    dsimp only
    split <;> rfl

theorem engineStep_dataIn (s : State) : (engineStep s).dataIn = s.dataIn := by rw [engineStep_onlyEngineMoved s]

theorem engineStep_errOvf (s : State) : (engineStep s).errOvf = s.errOvf := by rw [engineStep_onlyEngineMoved s]

theorem absorbPhase_lc_cases (s : State) :
    (s.latch.op = .init ∧ absorbPhase s = complete (initEffect s)) ∨ (absorbPhase s).lc = s.lc := by
  unfold absorbPhase
  split
  case h_1 hop => exact .inl ⟨hop, rfl⟩
  case h_2 nb _ =>
    right
    dsimp only
    split_ifs <;> rfl
  all_goals exact .inr rfl

theorem padPhase_lc (s : State) : (padPhase s).lc = s.lc := by
  unfold padPhase
  split
  · dsimp only
    split_ifs <;> simp
  all_goals rfl

theorem schedPhase_lc (s : State) : (schedPhase s).lc = s.lc := by
  unfold schedPhase
  split_ifs <;> rfl

theorem feedPhase_lc_cases (s : State) :
    (s.latch.resume = none ∧ feedPhase s = complete (consume { s with h := feedForward s.h s.work })) ∨
    (feedPhase s).lc = s.lc := by
  unfold feedPhase
  dsimp only
  split
  case h_1 => exact .inr rfl
  case h_2 hq => exact .inl ⟨hq, rfl⟩

/-- LC moves in an engine step only where an INIT or a FINALIZE completes (40_commands.md R57, 42_finalize.md R85). -/
theorem engineStep_lc_cases (s : State) :
    (s.latch.op = .init ∧ engineStep s = complete (initEffect s)) ∨
    (s.seq.phase = .feed ∧ s.latch.resume = none ∧
      engineStep s = complete (consume { s with h := feedForward s.h s.work })) ∨
    (engineStep s).lc = s.lc := by
  cases hphase : s.seq.phase <;> simp only [engineStep, hphase]
  case absorb => exact (absorbPhase_lc_cases s).imp_right .inr
  case feed => exact .inr ((feedPhase_lc_cases s).imp_left fun h => ⟨trivial, h⟩)
  case pad => exact .inr (.inr (padPhase_lc s))
  case sched => exact .inr (.inr (schedPhase_lc s))
  case idle => exact .inr (.inr trivial)
  case round => exact .inr (.inr rfl)

/-! ### DATA_IN -/

theorem absorbEffect_dataIn (nb : Nat) (s : State) : (absorbEffect nb s).dataIn = s.dataIn := by
  rw [absorbEffect, absorbBytes_onlyMessageMoved]

theorem finalizeEffect_dataIn (s : State) : (finalizeEffect s).dataIn = s.dataIn := by
  calc (finalizeEffect s).dataIn
      = (padZeros 64 (absorbByte 0x80 s)).dataIn := rfl
    _ = s.dataIn := by rw [padZeros_onlyMessageMoved, absorbByte_onlyMessageMoved]

/-- An accepted command whose effect leaves DATA_IN alone leaves it alone, whatever its latency. -/
theorem runAccepted_dataIn {f : State → State} (hf : ∀ u, (f u).dataIn = u.dataIn) (n : Nat) (d : Instr) (s : State) :
    (runAccepted n d f s).dataIn = s.dataIn := by
  obtain ⟨-, h⟩ | ⟨-, h⟩ := runAccepted_cases n d f s <;> rw [h]
  · rw [complete_dataIn, hf, accept_dataIn]
  · rfl

/-- No command changes DATA_IN (10_state.md R23). -/
theorem exec_dataIn (i : Instr) (s : State) : ∃ t, exec i s = .next t ∧ t.dataIn = s.dataIn := by
  obtain ⟨e, h⟩ | ⟨-, h⟩ | ⟨-, -, h⟩ | ⟨nb, -, -, -, -, -, h⟩ | ⟨-, -, -, h⟩ := exec_cases i s <;> refine ⟨_, h, ?_⟩
  · exact raise_dataIn e s
  · rfl
  · exact runAccepted_dataIn initEffect_dataIn _ _ _
  · exact runAccepted_dataIn (absorbEffect_dataIn nb.toNat) _ _ _
  · exact runAccepted_dataIn finalizeEffect_dataIn _ _ _

/-- Settles O33: a write and a read go straight to the register, and neither exec nor the engine writes it. -/
theorem dataInHoldsTheLastWrite : Obligations.DataInHoldsTheLastWrite := by
  unfold Obligations.DataInHoldsTheLastWrite
  exact ⟨fun _ _ => ⟨rfl, rfl⟩, fun _ _ => rfl, exec_dataIn, engineStep_dataIn, rfl⟩

/-! ### A presented word -/

theorem runAccepted_busy {n : Nat} {d : Instr} {f : State → State} {s : State}
    (h : (runAccepted n d f s).busy = true) : runAccepted n d f s = accept d s := by
  obtain ⟨-, ht⟩ | ⟨-, ht⟩ := runAccepted_cases n d f s
  · rw [ht, complete_busy] at h
    cases h
  · exact ht

/-- A word that leaves BUSY = 1 has met a running command or has been accepted: LC stays, and ERR_OVF is not set. -/
theorem CommandOutcome.of_busy {c : Word} {s t : State} (h : CommandOutcome c s t) (hb : t.busy = true) :
    t.lc = s.lc ∧ (t.errOvf = true → s.errOvf = true) := by
  cases h with
  | busyError _ => exact ⟨rfl, id⟩
  | illegal hidle => cases hidle.symm.trans hb
  | sequenceError hidle => cases hidle.symm.trans hb
  | overflow nb hidle => cases hidle.symm.trans hb
  | nop _ => exact ⟨rfl, id⟩
  | init n _ _ =>
    rw [runAccepted_busy hb]
    exact ⟨rfl, nofun⟩
  | absorb n nb _ _ _ =>
    rw [runAccepted_busy hb]
    exact ⟨rfl, id⟩
  | finalize n _ _ _ =>
    rw [runAccepted_busy hb]
    exact ⟨rfl, id⟩

/-- A word moves LC only as an INIT or a FINALIZE of latency 0, or as the ERR_OVF of an ABSORB (10_state.md R20). -/
theorem CommandOutcome.lc_cases {c : Word} {s t : State} (h : CommandOutcome c s t) (hlc : t.lc ≠ s.lc) :
    s.busy = false ∧
      ((decode c = .command .init ∧ t = complete (initEffect (accept .init (clearErrors s)))) ∨
       (decode c = .command .finalize ∧ s.lc = .active ∧ t = complete (finalizeEffect (accept .finalize s))) ∨
       (∃ nb, decode c = .command (.absorb nb) ∧ s.lc = .active ∧ 2 ^ 64 - 1 < s.count.toNat + nb.toNat ∧
        t = raise .ovf s)) := by
  cases h with
  | busyError _ => exact absurd rfl hlc
  | illegal _ => exact absurd rfl hlc
  | sequenceError _ => exact absurd rfl hlc
  | overflow nb hb hc hactive hcount => exact ⟨hb, .inr (.inr ⟨nb, hc, hactive, hcount, rfl⟩)⟩
  | nop _ => exact absurd rfl hlc
  | init n hb hc =>
    obtain ⟨-, ht⟩ | ⟨-, ht⟩ := runAccepted_cases n .init initEffect (clearErrors s)
    · exact ⟨hb, .inl ⟨hc, ht⟩⟩
    · exact absurd (congrArg State.lc ht) hlc
  | absorb n nb hb _ _ =>
    obtain ⟨-, ht⟩ | ⟨-, ht⟩ := runAccepted_cases n (.absorb nb) (absorbEffect nb.toNat) s
    · obtain ⟨-, hkept, -⟩ :=
        (absorbBytes_onlyMessageMoved (operandBytes s.dataIn nb.toNat) (accept (.absorb nb) s)).fields
      exact absurd ((congrArg State.lc ht).trans hkept) hlc
    · exact absurd (congrArg State.lc ht) hlc
  | finalize n hb hc hactive =>
    obtain ⟨-, ht⟩ | ⟨-, ht⟩ := runAccepted_cases n .finalize finalizeEffect s
    · exact ⟨hb, .inr (.inl ⟨hc, hactive, ht⟩)⟩
    · exact absurd (congrArg State.lc ht) hlc

/-! ### A step that ends with BUSY = 1 -/

theorem step_of_busy {s t : State} (h : step s = .next t) (hb : t.busy = true) :
    t.lc = s.lc ∧ (t.errOvf = true → s.errOvf = true) := by
  cases step_outcome h with
  | reset _ => cases hb
  | engine _ _ =>
    refine ⟨?_, by rw [engineStep_errOvf]; exact id⟩
    obtain ⟨-, ht⟩ | ⟨-, -, ht⟩ | hlc := engineStep_lc_cases (withTurns (laterTurns s) s)
    · rw [ht] at hb; cases hb
    · rw [ht] at hb; cases hb
    · exact hlc
  | noCommand v a => exact ⟨rfl, id⟩
  | command c rest _ hc => exact hc.of_busy hb

/-- Settles O39: only a step that ends with BUSY = 0 completes an INIT or a FINALIZE or raises ERR_OVF, and DIGEST reads
0 while BUSY = 1. -/
theorem busyHidesTheRunningCommand : Obligations.BusyHidesTheRunningCommand := by
  unfold Obligations.BusyHidesTheRunningCommand
  intro s t h hb
  obtain ⟨hlc, hovf⟩ := step_of_busy h hb
  obtain ⟨-, hcode, -⟩ := status_fields s
  obtain ⟨-, hcode', -⟩ := status_fields t
  refine ⟨hlc, ?_, fun k => ?_, hovf⟩
  · rw [hcode, hcode', hlc]
  · simp [digestReg, hb]

/-! ### A step that moves LC -/

/-- LC moves by the engine only in the completing step of an INIT or of a FINALIZE, which is ACTIVE until then. -/
theorem EngineInv.lc_cases_engineStep {s : State} (hs : EngineInv s) (hlc : (engineStep s).lc ≠ s.lc) :
    s.busy = true ∧
      ((s.latch.op = .init ∧ engineStep s = complete (initEffect s)) ∨
       (s.latch.op = .finalize ∧ s.lc = .active ∧
        engineStep s = complete (consume { s with h := feedForward s.h s.work }))) := by
  have hb : s.busy = true := by
    by_contra hidle
    have hrest := (hs.rest (Bool.eq_false_iff.mpr hidle)).1
    rw [engineStep_of_idle (by rw [hrest]; rfl)] at hlc
    exact hlc rfl
  refine ⟨hb, ?_⟩
  obtain hinit | ⟨hphase, hnone, ht⟩ | hkept := engineStep_lc_cases s
  · exact .inl hinit
  · have hplace := hs.running hb
    cases hop : s.latch.op with
    | nop => simp [runningPlace, hop] at hplace
    | init => simp [(runningPlace_init hop).mp hplace] at hphase
    | absorb nb =>
      obtain ⟨-, ⟨hphase', -⟩ | ⟨-, -, q, hq, -⟩⟩ := (runningPlace_absorb hop).mp hplace
      · cases hphase.symm.trans hphase'
      · cases hnone.symm.trans hq
    | finalize =>
      obtain ⟨hactive, -⟩ := (runningPlace_finalize hop).mp hplace
      exact .inr ⟨rfl, hactive, ht⟩
  · exact absurd hkept hlc

/-- Settles O53: each outcome of a step that moves LC is one of the rules of R20. -/
theorem lifecycleMovesOnlyByItsRules : Obligations.LifecycleMovesOnlyByItsRules := by
  unfold Obligations.LifecycleMovesOnlyByItsRules
  intro s t hs h hlc
  cases step_outcome h with
  | reset hr => exact .inr (.inr (.inl ⟨rfl, hr⟩))
  | engine hr hh =>
    have hu : EngineInv (withTurns (laterTurns s) s) := hs.congr rfl rfl rfl rfl rfl
    obtain ⟨hb, ⟨hop, ht⟩ | ⟨hop, hactive, ht⟩⟩ := hu.lc_cases_engineStep hlc <;> rw [ht]
    · exact .inl ⟨.inl ⟨hb, hh, hr, hop⟩, rfl, rfl, rfl, rfl⟩
    · exact .inr (.inl ⟨.inl ⟨hb, hh, hr, hop⟩, hactive, rfl, rfl, rfl, rfl, rfl, rfl⟩)
  | noCommand v a => exact absurd rfl hlc
  | command c rest hp hc =>
    obtain ⟨hb, ⟨hdec, rfl⟩ | ⟨hdec, hactive, rfl⟩ | ⟨nb, hdec, hactive, hcount, rfl⟩⟩ := hc.lc_cases hlc
    · exact .inl ⟨.inr ⟨hb, c, hp, hdec⟩, rfl, rfl, rfl, rfl⟩
    · exact .inr (.inl ⟨.inr ⟨hb, c, hp, hdec⟩, hactive, rfl, rfl, rfl, rfl, rfl, rfl⟩)
    · exact .inr (.inr (.inr ⟨rfl, hactive, hb, rfl, ⟨c, nb, hp, hdec, hcount⟩, rfl, rfl, rfl⟩))

end Sys2Proof.Machine
end

section
/-! SUPPORT for O18 and O54: two states that have absorbed the same bytes since a block boundary go on alike, whatever
else BUF, W and a..h hold (10_state.md R16 to R18, R30). -/

namespace Sys2Proof.Machine

/-- Settles O18: the hash chain that starts empty at a block boundary. -/
theorem oneCompressionPer64Bytes : Obligations.OneCompressionPer64Bytes := by
  unfold Obligations.OneCompressionPer64Bytes
  intro s m h
  have hm : Chained s.h m (absorbBytes m s) := (Chained.nil h).after_absorbBytes m
  exact ⟨hm.hash_eq, fun j hj => hm.tail_eq j.val j.isLt hj⟩

/-! ### The live part of a message -/

/-- The two states have the same COUNT and the same hash chain: they agree on H, COUNT and BUF before the offset, and no
rule of a message reads more. `sharesMessage_of_live` and `SharesMessage.live` tie it to `SameLive`. -/
def SharesMessage (s t : State) : Prop := s.count = t.count ∧ ∃ h m, Chained h m s ∧ Chained h m t

/-- Any H and any bytes before the offset are a hash chain: of those bytes, with no full block. -/
theorem chained_take (s : State) : Chained s.h (s.buf.toList.take (offset s)) s := by
  have hlt : offset s < 64 := Nat.mod_lt _ (by decide)
  have hlen : (s.buf.toList.take (offset s)).length = offset s := by
    rw [List.length_take, Vector.length_toList]; omega
  have hdiv : (s.buf.toList.take (offset s)).length / 64 = 0 := by omega
  refine ⟨?_, by omega, fun i hi hlt' => ?_⟩
  · rw [chain, hdiv]; rfl
  · rw [hdiv, List.getD_eq_getElem _ _ (by omega), List.getElem_take]
    simp

theorem Chained.of_live {h : Hash} {m : List Byte} {s t : State} (hs : Chained h m s) (hh : s.h = t.h)
    (hcount : s.count = t.count) (hbuf : ∀ j : Fin 64, j.val < offset s → s.buf[j] = t.buf[j]) : Chained h m t := by
  refine ⟨hh.symm.trans hs.hash_eq, ?_, fun i hi hlt => ?_⟩
  · rw [← hs.offset_eq, offset, offset, hcount]
  · exact (hbuf ⟨i, hi⟩ (hs.offset_eq ▸ hlt)).symm.trans (hs.tail_eq i hi hlt)

theorem sharesMessage_of_live {s t : State} (hh : s.h = t.h) (hcount : s.count = t.count)
    (hbuf : ∀ j : Fin 64, j.val < offset s → s.buf[j] = t.buf[j]) : SharesMessage s t :=
  ⟨hcount, _, _, chained_take s, (chained_take s).of_live hh hcount hbuf⟩

theorem SharesMessage.live {s t : State} (hst : SharesMessage s t) :
    s.h = t.h ∧ s.count = t.count ∧ ∀ j : Fin 64, j.val < offset s → s.buf[j] = t.buf[j] := by
  obtain ⟨hcount, h, m, hs, ht⟩ := hst
  refine ⟨hs.hash_eq.trans ht.hash_eq.symm, hcount, fun j hj => ?_⟩
  have hlt : j.val < m.length % 64 := hs.offset_eq ▸ hj
  exact (hs.tail_eq j.val j.isLt hlt).trans (ht.tail_eq j.val j.isLt hlt).symm

theorem SharesMessage.after_absorbBytes {s t : State} (hst : SharesMessage s t) (bs : List Byte) :
    SharesMessage (absorbBytes bs s) (absorbBytes bs t) := by
  obtain ⟨hcount, h, m, hs, ht⟩ := hst
  exact ⟨by rw [absorbBytes_count, absorbBytes_count, hcount], h, m ++ bs, hs.after_absorbBytes bs,
    ht.after_absorbBytes bs⟩

/-- FINALIZE's last compression reads the hash chain of the padded bytes and the bit count, and nothing else. -/
theorem Chained.finalizeEffect_h_eq_compressHash {h : Hash} {m : List Byte} {s : State} (hs : Chained h m s) :
    (finalizeEffect s).h =
      compressHash (chain h (m ++ padBytes (m.length % 64)))
        (blockAt (m ++ padBytes (m.length % 64) ++ (List.range 8).map (longByte (bitCount s.count)))
          ((m ++ padBytes (m.length % 64)).length / 64)) := by
  have h56 : (m ++ padBytes (m.length % 64)).length % 64 = 56 := by rw [List.length_append, padBytes_length]; omega
  have hu := hs.after_absorbBytes (padBytes (m.length % 64))
  have hlast : (finalizeEffect s).h =
      (compress (writeLength (bitCount s.count) (padZeros 64 (absorbByte 0x80 s)))).h := rfl
  rw [hlast, compress_h_eq_compressHash, writeLength_h, writeLength_buf, padZeros_absorbByte, hs.offset_eq, hu.hash_eq,
    hu.lengthBlock_eq _ h56]

theorem SharesMessage.finalizeEffect_h {s t : State} (hst : SharesMessage s t) :
    (finalizeEffect s).h = (finalizeEffect t).h := by
  obtain ⟨hcount, h, m, hs, ht⟩ := hst
  rw [hs.finalizeEffect_h_eq_compressHash, ht.finalizeEffect_h_eq_compressHash, hcount]

/-! ### What stays the same outside -/

/-- Moves of the message and transform state keep two states equal outside it. -/
theorem SameOutside.after_moved {s t u v : State} (h : SameOutside s t) (hu : OnlyMessageMoved s u)
    (hv : OnlyMessageMoved t v) : SameOutside u v := by
  unfold SameOutside at *
  rw [hu, hv, ← h]

theorem SameOutside.finalizeEffect {s t : State} (h : SameOutside s t) :
    SameOutside (finalizeEffect s) (finalizeEffect t) := by
  have moved (u : State) : OnlyMessageMoved u
      (compress (writeLength (bitCount u.count) (padZeros 64 (absorbByte 0x80 u)))) :=
    ((absorbByte_onlyMessageMoved _ u).trans (padZeros_onlyMessageMoved 64 _)).trans rfl
  exact (congrArg consume (h.after_moved (moved s) (moved t)) :)

theorem SameLive.memRead_eq {s t : State} (h : SameLive s t) (off : Nat) : memRead off s = memRead off t := by
  obtain ⟨-, -, hout, -, hdone⟩ := h
  obtain ⟨hstatus, hdataIn, hlc, hbusy, -⟩ := hout.views
  exact memRead_congr hstatus hdataIn hlc hbusy hdone off

/-! ### The commands of latency 0 -/

/-- An error leaves the live state alone, or ends the message (60_exceptions.md R87, R90). -/
theorem SameLive.after_raise {s t : State} (h : SameLive s t) (e : Err) : SameLive (raise e s) (raise e t) := by
  obtain ⟨hs, ht, hout, hactive, hdone⟩ := h
  cases e with
  | ovf => exact ⟨hs, ht, (congrArg (raise .ovf) hout :), nofun, nofun⟩
  | cmd => exact ⟨hs, ht, (congrArg (raise .cmd) hout :), hactive, hdone⟩
  | seq => exact ⟨hs, ht, (congrArg (raise .seq) hout :), hactive, hdone⟩
  | busy => exact ⟨hs, ht, (congrArg (raise .busy) hout :), hactive, hdone⟩

/-- INIT writes all of the live state of a new message (40_commands.md R57). -/
theorem SameLive.after_init {s t : State} (h : SameLive s t) :
    SameLive (complete (initEffect (accept .init (clearErrors s))))
      (complete (initEffect (accept .init (clearErrors t)))) := by
  obtain ⟨-, -, hout, -, -⟩ := h
  refine ⟨⟨rfl, rfl, rfl⟩, ⟨rfl, rfl, rfl⟩, ?_, fun _ => ⟨rfl, rfl, fun j hj => ?_⟩, nofun⟩
  · exact (congrArg (fun u => complete (initEffect (accept .init (clearErrors u)))) hout :)
  · exact absurd hj (Nat.not_lt_zero _)

section
variable {s t : State} (h : SameLive s t) (hlc : s.lc = .active)
include h hlc

theorem SameLive.sharesMessage_accept (d : Instr) : SharesMessage (accept d s) (accept d t) := by
  obtain ⟨-, -, -, hactive, -⟩ := h
  obtain ⟨hh, hcount, hbuf⟩ := hactive hlc
  exact sharesMessage_of_live hh hcount hbuf

theorem SameLive.after_absorb (d : Instr) (bs : List Byte) :
    SameLive (complete (absorbBytes bs (accept d s))) (complete (absorbBytes bs (accept d t))) := by
  have hmsg := ((h.sharesMessage_accept hlc d).after_absorbBytes bs).live
  have hmoved := absorbBytes_onlyMessageMoved bs (accept d s)
  obtain ⟨-, -, hout, -, -⟩ := h
  have haccept : SameOutside (accept d s) (accept d t) := (congrArg (accept d) hout :)
  refine ⟨⟨rfl, rfl, rfl⟩, ⟨rfl, rfl, rfl⟩, ?_, fun _ => hmsg, fun hdone => ?_⟩
  · have hmoved' := absorbBytes_onlyMessageMoved bs (accept d t)
    exact (congrArg complete (haccept.after_moved hmoved hmoved') :)
  · obtain ⟨-, hkept, -⟩ := hmoved.fields
    cases hlc.symm.trans (hkept.symm.trans hdone)

theorem SameLive.after_finalize :
    SameLive (complete (finalizeEffect (accept .finalize s))) (complete (finalizeEffect (accept .finalize t))) := by
  have hh := (h.sharesMessage_accept hlc .finalize).finalizeEffect_h
  obtain ⟨-, -, hout, -, -⟩ := h
  have haccept : SameOutside (accept .finalize s) (accept .finalize t) := (congrArg (accept .finalize) hout :)
  exact ⟨⟨rfl, rfl, rfl⟩, ⟨rfl, rfl, rfl⟩, (congrArg complete haccept.finalizeEffect :), nofun, fun _ => hh⟩

end

/-! ### Rejected commands -/

section
variable {s : State} (hb : s.busy = false)
include hb

theorem exec_absorb_count_illegal {nb : BitVec 3} (hnb : 4 < nb.toNat) :
    exec (.absorb nb) s = .next (raise .cmd s) := by
  simp [exec, execAbsorb, hb, hnb]

theorem exec_absorb_not_active {nb : BitVec 3} (hnb : nb.toNat ≤ 4) (hlc : s.lc ≠ .active) :
    exec (.absorb nb) s = .next (raise .seq s) := by
  simp [exec, execAbsorb, hb, hlc, Nat.not_lt.mpr hnb]

theorem exec_absorb_overflow {nb : BitVec 3} (hnb : nb.toNat ≤ 4) (hlc : s.lc = .active)
    (hcount : 2 ^ 64 - 1 < s.count.toNat + nb.toNat) : exec (.absorb nb) s = .next (raise .ovf s) := by
  rw [exec, execAbsorb, if_neg (by simp [hb]), if_neg (by omega), if_neg (not_not.mpr hlc), if_pos hcount]

theorem exec_finalize_not_active (hlc : s.lc ≠ .active) : exec .finalize s = .next (raise .seq s) := by
  simp [exec, execFinalize, hb, hlc]

end

/-- The same command of latency 0 takes states with the same live state to states with the same live state. -/
theorem SameLive.after_exec {s t : State} (h : SameLive s t) (hlat : Atomic s) (i : Instr) :
    ∃ s' t', exec i s = .next s' ∧ exec i t = .next t' ∧ SameLive s' t' := by
  obtain ⟨⟨hbs, -, -⟩, ⟨hbt, -, -⟩, hout, hactive, -⟩ := id h
  obtain ⟨-, hdin, hlc, -, hlat_eq⟩ := hout.views
  have hlat' : Atomic t := hlat_eq.symm.trans hlat
  cases i with
  | nop => exact ⟨s, t, by simp [exec, execNop, hbs], by simp [exec, execNop, hbt], h⟩
  | init => exact ⟨_, _, exec_init_atomic hbs hlat, exec_init_atomic hbt hlat', h.after_init⟩
  | absorb nb =>
    obtain hnb | hnb := Nat.lt_or_ge 4 nb.toNat
    · exact ⟨_, _, exec_absorb_count_illegal hbs hnb, exec_absorb_count_illegal hbt hnb, h.after_raise .cmd⟩
    by_cases hs : s.lc = .active
    · obtain ⟨-, hcount, -⟩ := hactive hs
      have ht : t.lc = .active := hlc ▸ hs
      obtain hovf | hfit := Nat.lt_or_ge (2 ^ 64 - 1) (s.count.toNat + nb.toNat)
      · exact ⟨_, _, exec_absorb_overflow hbs hnb hs hovf, exec_absorb_overflow hbt hnb ht (hcount ▸ hovf),
          h.after_raise .ovf⟩
      · refine ⟨_, _, exec_absorb_atomic hbs hlat hs hnb hfit, exec_absorb_atomic hbt hlat' ht hnb (hcount ▸ hfit), ?_⟩
        rw [hdin]
        exact h.after_absorb hs (.absorb nb) _
    · exact ⟨_, _, exec_absorb_not_active hbs hnb hs, exec_absorb_not_active hbt hnb (hlc ▸ hs), h.after_raise .seq⟩
  | finalize =>
    by_cases hs : s.lc = .active
    · exact ⟨_, _, exec_finalize_atomic hbs hlat hs, exec_finalize_atomic hbt hlat' (hlc ▸ hs), h.after_finalize hs⟩
    · exact ⟨_, _, exec_finalize_not_active hbs hs, exec_finalize_not_active hbt (hlc ▸ hs), h.after_raise .seq⟩

/-- Settles O54: each command of latency 0 keeps the agreement on the live state, and the host reads only of that. -/
theorem deadStateIsNeverRead : Obligations.DeadStateIsNeverRead := by
  unfold Obligations.DeadStateIsNeverRead
  intro s t i h hlat
  obtain ⟨s', t', hs', ht', h'⟩ := h.after_exec hlat i
  exact ⟨s', t', hs', ht', h', h'.memRead_eq⟩

end Sys2Proof.Machine
end

section
/-! SUPPORT for O32, O34 and O35: the register block and the host's accesses to it (20_memory.md R32 to R34). -/

namespace Sys2Proof.Machine

/-! ### Offsets -/

theorem regAt_eq_cmd_iff (off : Nat) : regAt off = .cmd ↔ off = 0x00 := by
  unfold regAt
  split_ifs <;> simp_all

theorem regAt_eq_dataIn_iff (off : Nat) : regAt off = .dataIn ↔ off = 0x08 := by
  unfold regAt
  split_ifs <;> simp_all

/-- The reserved words after DIGEST7 (20_memory.md R32). -/
theorem regAt_reserved (j : Fin 4) : regAt (0x30 + 4 * j.val) = .reserved := by
  revert j
  decide

/-- A write to an offset other than those of CMD and DATA_IN has no effect (20_memory.md R34). -/
theorem busWrite_regAt_ignored {off : Nat} (hcmd : off ≠ 0x00) (hdataIn : off ≠ 0x08) (v : Word) (s : State) :
    busWrite (regAt off) v s = .next s := by
  rw [busWrite_of_ne_cmd (mt (regAt_eq_cmd_iff off).mp hcmd), if_neg (mt (regAt_eq_dataIn_iff off).mp hdataIn)]

theorem base_mod_64 : Config.base % 64 = 0 := Nat.mul_mod_right 64 Config.baseBlock

theorem offsetOfAddress_busAddress {off : Nat} (h : off < 64) : offsetOfAddress (busAddress off) = some off := by
  have hrange : Config.base ≤ Config.base + off ∧ Config.base + off < Config.base + 64 := by omega
  rw [offsetOfAddress, busAddress, if_pos hrange, Nat.add_sub_cancel_left]

/-- Settles O32: reads and writes go by `regAt`, which takes only 0x00 to CMD and only 0x08 to DATA_IN. -/
theorem registerBlockMap : Obligations.RegisterBlockMap := by
  unfold Obligations.RegisterBlockMap
  refine ⟨fun s => ⟨rfl, rfl, rfl, rfl, fun k => ?_, fun j => ?_⟩, fun s v => ⟨rfl, rfl, ?_⟩, base_mod_64,
    fun _ => offsetOfAddress_busAddress⟩
  · rw [memRead, regAt_digest]; rfl
  · rw [memRead, regAt_reserved]; rfl
  · exact fun _ _ _ hcmd hdataIn => busWrite_regAt_ignored hcmd hdataIn v s

/-! ### The host's accesses -/

/-- The contract of R33: the last aligned offset below 64 is 0x3C. -/
theorem Access.admitted_iff (off bytes : Nat) :
    (⟨off, bytes⟩ : Access).admitted = true ↔ bytes = 4 ∧ off % 4 = 0 ∧ off ≤ 0x3C := by
  simp only [Access.admitted, decide_eq_true_iff]
  omega

theorem hostMoves_of_resetMoves {s : State} (h : resetMoves s = true) : hostMoves s = false := by
  unfold resetMoves at h
  unfold hostMoves
  split at h <;> simp_all

theorem step_of_hostMoves {s : State} (h : hostMoves s = true) : step s = hostTurn (withTurns (laterTurns s) s) := by
  obtain ⟨hr, -⟩ | ⟨-, hh, -⟩ | ⟨-, -, ht⟩ := step_cases s
  · cases (hostMoves_of_resetMoves hr).symm.trans h
  · cases hh.symm.trans h
  · exact ht

section
variable {s : State} (hh : hostMoves s = true) {a : Access} {rest : List Stmt}
include hh

theorem step_of_wr {v : Word} (hp : s.host.program = .wr a v :: rest) :
    step s =
      if a.admitted then busWrite (regAt a.off) v (withProgram rest (withTurns (laterTurns s) s))
      else .refused .accessOutsideContract := by
  rw [step_of_hostMoves hh, hostTurn, withTurns_host, hp]

theorem step_of_rd {x : String} (hp : s.host.program = .rd a x :: rest) :
    step s =
      if a.admitted then .next (bindVar x (memRead a.off s) (withProgram rest (withTurns (laterTurns s) s)))
      else .refused .accessOutsideContract := by
  have hread : busRead (regAt a.off) (withTurns (laterTurns s) s) = memRead a.off s :=
    memRead_congr rfl rfl rfl rfl (fun _ => rfl) a.off
  rw [step_of_hostMoves hh, hostTurn, withTurns_host, hp, ← hread]

end

/-- No write to a register is refused: even a rejected command word answers a next state (60_exceptions.md R87). -/
theorem busWrite_next (r : Reg) (v : Word) (s : State) : ∃ t, busWrite r v s = .next t := by
  by_cases hr : r = .cmd
  · subst hr
    obtain ⟨-, h⟩ | ⟨-, -, h⟩ | ⟨-, i, -, h⟩ := presentCommand_cases v s
    · exact ⟨_, h⟩
    · exact ⟨_, h⟩
    · obtain ⟨t, ht, -⟩ := exec_dataIn i s
      exact ⟨t, h.trans ht⟩
  · exact ⟨_, busWrite_of_ne_cmd hr v s⟩

/-- Settles O34: an admitted access answers a next state, and any other is refused. -/
theorem accessOutsideTheContractIsRefused : Obligations.AccessOutsideTheContractIsRefused := by
  unfold Obligations.AccessOutsideTheContractIsRefused
  intro s off bytes rest hh
  rw [← Access.admitted_iff]
  refine ⟨fun v hp => ?_, fun x hp => ?_⟩
  · obtain ⟨t, ht⟩ := busWrite_next (regAt off) v (withProgram rest (withTurns (laterTurns s) s))
    rw [step_of_wr hh hp, ht, ite_eq_right_iff, imp_iff_not nofun]
  · rw [step_of_rd hh hp, ite_eq_right_iff, imp_iff_not nofun]

/-- Settles O35: the read binds the variable and goes on with the program, and the step takes the host's turn. -/
theorem readsHaveNoSideEffect : Obligations.ReadsHaveNoSideEffect := by
  unfold Obligations.ReadsHaveNoSideEffect
  intro s off x rest hh halign hoff hp
  have hadmitted : (⟨off, 4⟩ : Access).admitted = true := (Access.admitted_iff off 4).mpr ⟨rfl, halign, hoff⟩
  rw [step_of_rd hh hp, if_pos hadmitted]
  rfl

end Sys2Proof.Machine
end

section
/-! SUPPORT for O40, O41 and O42: the fields of a command word, and the decoder as the inverse of the encoder
(30_encoding.md R45 to R48). -/

namespace Sys2Proof.Machine

/-! ### The fields of a command word -/

section
variable (op : BitVec 4) (nb : BitVec 3)

@[simp] theorem opField_commandWord : opField (commandWord op nb) = op := BitVec.extractLsb'_append_eq_right

@[simp] theorem rsv0Field_commandWord : rsv0Field (commandWord op nb) = 0 := by
  rw [rsv0Field, commandWord, BitVec.extractLsb'_append_eq_of_le (by decide)]
  exact BitVec.extractLsb'_append_eq_right

@[simp] theorem nbField_commandWord : nbField (commandWord op nb) = nb := by
  rw [nbField, commandWord, BitVec.extractLsb'_append_eq_of_le (by decide),
    BitVec.extractLsb'_append_eq_of_le (by decide)]
  exact BitVec.extractLsb'_append_eq_right

@[simp] theorem rsv1Field_commandWord : rsv1Field (commandWord op nb) = 0 := by
  rw [rsv1Field, commandWord, BitVec.extractLsb'_append_eq_of_le (by decide),
    BitVec.extractLsb'_append_eq_of_le (by decide)]
  exact BitVec.extractLsb'_append_eq_left

end

/-- A word is its four fields (30_encoding.md R45), so with the reserved ones 0 it is the command word of the other two. -/
theorem commandWord_fields {c : Word} (h1 : rsv1Field c = 0) (h0 : rsv0Field c = 0) :
    commandWord (opField c) (nbField c) = c := by
  have h11 : 11 = 8 + 3 := rfl
  have h8 : 8 = 4 + 4 := rfl
  have h4 : 4 = 0 + 4 := rfl
  rw [commandWord, ← h1, ← h0, rsv1Field, nbField, rsv0Field, opField,
    BitVec.extractLsb'_append_extractLsb'_eq_extractLsb' h11, BitVec.extractLsb'_append_extractLsb'_eq_extractLsb' h8,
    BitVec.extractLsb'_append_extractLsb'_eq_extractLsb' h4, BitVec.extractLsb'_eq_self]

/-! ### Decoding and encoding -/

theorem decode_encode {i : Instr} (h : WellFormed i) : decode (encode i) = .command i := by
  cases i with
  | nop | init | finalize => rfl
  | absorb nb =>
    have hnb : nb.toNat ≤ 4 := of_decide_eq_true h
    simp [decode, encode, hnb]

/-- The encoding of a count above 4 is ILLEGAL (30_encoding.md R47). -/
theorem decode_encode_count_illegal {nb : BitVec 3} (h : 4 < nb.toNat) :
    decode (encode (.absorb nb)) = .illegal .countTooBig := by
  simp [decode, encode, h]

/-- The decoder answers a command only where the reserved fields are 0, and OP and NB are the command's (30_encoding.md
R48). -/
theorem encode_of_decode {c : Word} {i : Instr} (h : decode c = .command i) : encode i = c := by
  unfold decode at h
  split at h
  · cases h
  next hrsv =>
    obtain ⟨h1, h0⟩ := not_or.mp hrsv
    rw [← commandWord_fields (not_not.mp h1) (not_not.mp h0)]
    split_ifs at h with hop hnb hop hnb hop hnb hop hnb <;> cases h
    · rw [hop, hnb]; rfl
    · rw [hop, hnb]; rfl
    · rw [hop]; rfl
    · rw [hop, hnb]; rfl

theorem decode_eq_command_iff (c : Word) (i : Instr) : decode c = .command i ↔ WellFormed i ∧ encode i = c := by
  refine ⟨fun h => ⟨wellFormed_of_decode h, encode_of_decode h⟩, ?_⟩
  rintro ⟨hwf, rfl⟩
  exact decode_encode hwf

/-! ### Presenting an encoding -/

/-- A busy engine discards every command (60_exceptions.md R91). -/
theorem exec_of_busy {s : State} (hb : s.busy = true) (i : Instr) : exec i s = .next (raise .busy s) := by
  cases i with
  | nop => simp [exec, execNop, hb]
  | init => simp [exec, execInit, hb]
  | absorb nb => simp [exec, execAbsorb, hb]
  | finalize => simp [exec, execFinalize, hb]

theorem presentCommand_of_busy {s : State} (hb : s.busy = true) (c : Word) :
    presentCommand c s = .next (raise .busy s) := by
  simp [presentCommand, hb]

/-- Only an ABSORB of 5 to 7 bytes is not well formed (30_encoding.md R47). -/
theorem eq_absorb_of_not_wellFormed {i : Instr} (h : ¬ WellFormed i) : ∃ nb : BitVec 3, i = .absorb nb ∧ 4 < nb.toNat := by
  cases i with
  | nop | init | finalize => exact absurd rfl h
  | absorb nb => exact ⟨nb, rfl, Nat.not_le.mp fun hle => h (decide_eq_true hle)⟩

/-- An engine takes the encoding of a command as that command: a busy one discards both, and an idle one raises ERR_CMD on
both for a count above 4. -/
theorem presentCommand_encode (i : Instr) (s : State) : presentCommand (encode i) s = exec i s := by
  cases hb : s.busy with
  | true => rw [presentCommand_of_busy hb, exec_of_busy hb]
  | false =>
    by_cases hwf : WellFormed i
    · exact presentCommand_of_command hb (decode_encode hwf)
    · obtain ⟨nb, rfl, hnb⟩ := eq_absorb_of_not_wellFormed hwf
      rw [presentCommand_of_illegal hb (decode_encode_count_illegal hnb), exec_absorb_count_illegal hb hnb]

/-- Settles O41: the decoder inverts the encoder on the well-formed commands and answers no other command. -/
theorem decodeAndEncodeAgree : Obligations.DecodeAndEncodeAgree := by
  unfold Obligations.DecodeAndEncodeAgree
  exact ⟨fun _ => decode_encode, fun c i => (decode_eq_command_iff c i).mp, presentCommand_encode⟩

/-! ### The command words, one by one -/

/-- The eight words of 30_encoding.md R48 with their commands. `decode_of_mem_commandWords` and
`encode_mem_commandWords` tie them to the model. -/
def commandWords : List (Word × Instr) :=
  [(0x00000000, .nop), (0x00000001, .init), (0x00000002, .absorb 0), (0x00000102, .absorb 1), (0x00000202, .absorb 2),
    (0x00000302, .absorb 3), (0x00000402, .absorb 4), (0x00000003, .finalize)]

theorem decode_of_mem_commandWords : ∀ p ∈ commandWords, decode p.1 = .command p.2 := by decide

theorem encode_mem_commandWords {i : Instr} (h : WellFormed i) : (encode i, i) ∈ commandWords := by
  cases i with
  | nop | init | finalize => decide
  | absorb nb => revert nb; decide

/-- Settles O40: a word decodes to a command only as its encoding, and the encodings are the eight words. -/
theorem exactlyEightWordsAreCommands : Obligations.ExactlyEightWordsAreCommands := by
  unfold Obligations.ExactlyEightWordsAreCommands
  intro c i
  refine ⟨fun h => ?_, decode_of_mem_commandWords (c, i)⟩
  obtain ⟨hwf, rfl⟩ := (decode_eq_command_iff c i).mp h
  exact encode_mem_commandWords hwf

/-- Settles O42: the commands by their encodings, and the two ILLEGAL words by the decoder's first ground that holds. -/
theorem listedWordsDecode : Obligations.ListedWordsDecode := by
  unfold Obligations.ListedWordsDecode
  exact ⟨decode_encode (i := .nop) rfl, decode_encode (i := .init) rfl, decode_encode (i := .absorb 3) rfl,
    decode_encode (i := .finalize) rfl, decode_encode_count_illegal (nb := 5) (by decide), by decide⟩

end Sys2Proof.Machine
end

section
/-! SUPPORT for O22: ABSORB works on the captured operand bytes alone (30_encoding.md R51, 40_commands.md R58). -/

namespace Sys2Proof.Machine

/-! ### The message path reads neither DATA_IN nor the latch -/

/-- The same state with another DATA_IN and another latch. -/
def withOperands (v : Word) (l : Latch) (s : State) : State := { s with dataIn := v, latch := l }

theorem absorbByte_withOperands (b : Byte) (v : Word) (l : Latch) (s : State) :
    absorbByte b (withOperands v l s) = withOperands v l (absorbByte b s) :=
  (apply_ite (withOperands v l) (offset (placeByte b s) = 0) (compress (placeByte b s)) (placeByte b s)).symm

theorem absorbBytes_withOperands (bs : List Byte) (v : Word) (l : Latch) (s : State) :
    absorbBytes bs (withOperands v l s) = withOperands v l (absorbBytes bs s) := by
  induction bs generalizing s with
  | nil => rfl
  | cons b bs ih => rw [absorbBytes_cons, absorbByte_withOperands, ih, absorbBytes_cons]

/-- Another DATA_IN, and so another latch while the command runs, shows in DATA_IN only once it has completed. -/
theorem complete_absorbBytes_writeDataIn (bs : List Byte) (d : Instr) (v : Word) (s : State) :
    complete (absorbBytes bs (accept d (writeDataIn v s))) = writeDataIn v (complete (absorbBytes bs (accept d s))) := by
  have haccept : accept d (writeDataIn v s) = withOperands v (accept d (writeDataIn v s)).latch (accept d s) := rfl
  rw [haccept, absorbBytes_withOperands]
  rfl

/-! ### ABSORB -/

theorem raise_writeDataIn (e : Err) (v : Word) (s : State) : raise e (writeDataIn v s) = writeDataIn v (raise e s) := by
  cases e <;> rfl

/-- The operand bytes are the first `n` bytes of the word (30_encoding.md R51). -/
theorem operandBytes_congr {v x : Word} {n : Nat}
    (h : ∀ k < n, v.extractLsb' (24 - 8 * k) 8 = x.extractLsb' (24 - 8 * k) 8) : operandBytes v n = operandBytes x n :=
  List.map_congr_left fun k hk => h k (List.mem_range.mp hk)

/-- An ABSORB of latency 0 with the same operand bytes in another DATA_IN: the same rejection, or the same bytes
absorbed. -/
theorem exec_absorb_writeDataIn {s : State} {nb : BitVec 3} {v : Word} (hb : s.busy = false) (hlat : Atomic s)
    (hnb : nb.toNat ≤ 4) (hv : operandBytes v nb.toNat = operandBytes s.dataIn nb.toNat) :
    ∃ t, exec (.absorb nb) s = .next t ∧ exec (.absorb nb) (writeDataIn v s) = .next (writeDataIn v t) := by
  have hb' : (writeDataIn v s).busy = false := hb
  by_cases hlc : s.lc = .active
  · obtain hovf | hfit := Nat.lt_or_ge (2 ^ 64 - 1) (s.count.toNat + nb.toNat)
    · refine ⟨_, exec_absorb_overflow hb hnb hlc hovf, ?_⟩
      rw [exec_absorb_overflow hb' hnb hlc hovf, raise_writeDataIn]
    · refine ⟨_, exec_absorb_atomic hb hlat hlc hnb hfit, ?_⟩
      rw [exec_absorb_atomic hb' hlat hlc hnb hfit, writeDataIn_dataIn, hv, complete_absorbBytes_writeDataIn]
  · refine ⟨_, exec_absorb_not_active hb hnb hlc, ?_⟩
    rw [exec_absorb_not_active hb' hnb hlc, raise_writeDataIn]

/-- Settles O22: the two values of DATA_IN have the same operand bytes. -/
theorem absorbIgnoresTheUnusedBytes : Obligations.AbsorbIgnoresTheUnusedBytes := by
  unfold Obligations.AbsorbIgnoresTheUnusedBytes
  intro s nb v ⟨hb, _, _⟩ hlat hnb hbytes
  exact exec_absorb_writeDataIn hb hlat hnb (operandBytes_congr hbytes)

end Sys2Proof.Machine
end

section
/-! SUPPORT for O21: the host's statements, run by the machine's own steps (30_encoding.md R54, R55), deliver the bytes
of ABSORBS. -/

namespace Sys2Proof.Machine

/-! ### Steps in a row -/

/-- A run of one step and more answers a next state exactly when its first step does and the rest of it does. -/
theorem run_succ_eq_next_iff {M : Host.Core} {n : Nat} {s u : M.State} :
    M.run (n + 1) s = .next u ↔ ∃ t, M.step s = .next t ∧ M.run n t = .next u := by
  cases h : M.step s <;> simp [Host.Core.run, h]

/-- Some number of steps takes the machine from `s` to `t`. -/
def Reaches (s t : State) : Prop := ∃ n, Host.Core.run Sys2Proof.core n s = .next t

theorem Reaches.refl (s : State) : Reaches s s := ⟨0, rfl⟩

theorem Reaches.head {s t u : State} (h : step s = .next t) (htu : Reaches t u) : Reaches s u := by
  obtain ⟨n, hn⟩ := htu
  exact ⟨n + 1, run_succ_eq_next_iff.mpr ⟨t, h, hn⟩⟩

theorem Reaches.trans {s t u : State} (hst : Reaches s t) (htu : Reaches t u) : Reaches s u := by
  obtain ⟨n, hn⟩ := hst
  induction n generalizing s with
  | zero => cases hn; exact htu
  | succ n ih =>
    obtain ⟨s', h, hn'⟩ := run_succ_eq_next_iff.mp hn
    exact .head h (ih hn')

/-! ### One statement of the host -/

theorem Access.admitted_ofReg (r : Reg) : (Access.ofReg r).admitted = true := by
  rw [Access.ofReg, Access.admitted_iff]
  cases r with
  | cmd | status | dataIn | reserved => decide
  | digest k => refine ⟨rfl, ?_, ?_⟩ <;> simp only [Reg.offset] <;> omega

/-- STATUS[0] is BUSY (10_state.md R24). -/
theorem status_getElem_zero (s : State) : (status s)[0] = s.busy := by
  obtain ⟨hbusy, -⟩ := status_fields s
  simpa using congrArg (fun x => x.getLsbD 0) hbusy

theorem runAccepted_turns_host {f : State → State} (hf : ∀ u, (f u).turns = u.turns ∧ (f u).host = u.host) (n : Nat)
    (d : Instr) (s : State) : (runAccepted n d f s).turns = s.turns ∧ (runAccepted n d f s).host = s.host := by
  obtain ⟨-, h⟩ | ⟨-, h⟩ := runAccepted_cases n d f s <;> rw [h]
  · exact hf (accept d s)
  · exact ⟨rfl, rfl⟩

theorem absorbEffect_turns_host (nb : Nat) (s : State) :
    (absorbEffect nb s).turns = s.turns ∧ (absorbEffect nb s).host = s.host := by
  rw [absorbEffect, absorbBytes_onlyMessageMoved]
  exact ⟨rfl, rfl⟩

/-- An ABSORB touches neither the turns nor the host. -/
theorem exec_absorb_turns_host {nb : BitVec 3} {s t : State} (h : exec (.absorb nb) s = .next t) :
    t.turns = s.turns ∧ t.host = s.host := by
  obtain ⟨e, he⟩ | ⟨hi, -⟩ | ⟨hi, -⟩ | ⟨_, hi, -, -, -, -, ha⟩ | ⟨hi, -⟩ := exec_cases (.absorb nb) s
  · cases he.symm.trans h
    exact ⟨raise_turns e s, raise_host e s⟩
  · cases hi
  · cases hi
  · cases hi
    cases ha.symm.trans h
    exact runAccepted_turns_host (absorbEffect_turns_host nb.toNat) _ _ _
  · cases hi

/-- Within a message at latency 0, with no turns given, the host is about to run the statements `p`. -/
structure HostReady (p : List Stmt) (s : State) : Prop where
  streaming : Streaming s
  turns_eq : s.turns = []
  program_eq : s.host.program = p

section
variable {x : Stmt} {p : List Stmt} {s : State}

/-- With no turns given an idle engine leaves the move to the host (log entry 3). -/
theorem HostReady.hostMoves_eq_true (hs : HostReady p s) : hostMoves s = true := by
  obtain ⟨hb, -, -⟩ := hs.streaming.idle
  simp [hostMoves, hs.turns_eq, hb]

/-- The state in which a statement takes effect: the statement and the turn are used up. -/
theorem HostReady.tail (hs : HostReady (x :: p) s) : HostReady p (withProgram p (withTurns (laterTurns s) s)) :=
  ⟨⟨hs.streaming.idle, hs.streaming.atomic, hs.streaming.lc_eq⟩, congrArg List.tail hs.turns_eq, rfl⟩

theorem HostReady.step_wr {r : Reg} {v : Word} (hs : HostReady (wr r v :: p) s) :
    step s = busWrite (regAt r.offset) v (withProgram p (withTurns (laterTurns s) s)) := by
  rw [step_of_wr hs.hostMoves_eq_true hs.program_eq, if_pos (Access.admitted_ofReg r), Access.ofReg]

theorem HostReady.after_wr_dataIn {v : Word} (hs : HostReady (wr .dataIn v :: p) s) :
    ∃ t, step s = .next t ∧ HostReady p t ∧ t.dataIn = v ∧ SameMessage t s := by
  obtain ⟨⟨hidle, hlat, hlc⟩, hturns, hprogram⟩ := hs.tail
  exact ⟨_, hs.step_wr, ⟨⟨hidle, hlat, hlc⟩, hturns, hprogram⟩, rfl, rfl, rfl, rfl⟩

/-- The write of an ABSORB's encoding absorbs its operand bytes (40_commands.md R58). -/
theorem HostReady.after_wr_absorb {nb : BitVec 3} (hs : HostReady (wr .cmd (encode (.absorb nb)) :: p) s)
    (hnb : nb.toNat ≤ 4) (hfit : s.count.toNat + nb.toNat ≤ 2 ^ 64 - 1) :
    ∃ t, step s = .next t ∧ HostReady p t ∧ SameMessage t (absorbBytes (operandBytes s.dataIn nb.toNat) s) := by
  obtain ⟨hstream, hturns, hprogram⟩ := hs.tail
  have hstep : step s = exec (.absorb nb) (withProgram p (withTurns (laterTurns s) s)) :=
    hs.step_wr.trans (presentCommand_encode _ _)
  obtain ⟨t, ht, hst, hmt⟩ := hstream.after_absorb hnb hfit
  obtain ⟨hturns', hhost'⟩ := exec_absorb_turns_host ht
  have hsame : SameMessage (withProgram p (withTurns (laterTurns s) s)) s := ⟨rfl, rfl, rfl⟩
  exact ⟨t, hstep.trans ht, ⟨hst, hturns'.trans hturns, (congrArg HostAgent.program hhost').trans hprogram⟩,
    hmt.trans (hsame.after_absorbBytes _)⟩

/-- POLL goes on at once, since no command runs (30_encoding.md R54). -/
theorem HostReady.after_poll (hs : HostReady (.poll :: p) s) :
    ∃ t, step s = .next t ∧ HostReady p t ∧ SameMessage t s := by
  obtain ⟨hb, -, -⟩ := hs.streaming.idle
  refine ⟨_, ?_, hs.tail, rfl, rfl, rfl⟩
  rw [step_of_hostMoves hs.hostMoves_eq_true, hostTurn, withTurns_host, hs.program_eq]
  simp [busRead, status_getElem_zero, hb]

end

/-! ### ABSORBS -/

/-- R55 writes the command word as OP and NB. -/
theorem hostAbsorb_eq (nb : BitVec 3) (v : Word) :
    hostAbsorb nb v = [wr .dataIn v, wr .cmd (encode (.absorb nb)), .poll] := by
  have hword : (0x00000002 ||| (nb.setWidth 32 <<< 8) : Word) = encode (.absorb nb) := by
    revert nb
    decide
  rw [hostAbsorb, hword]

/-- The bytes of a packed word in stream order are the packed bytes in order (00_scope.md R10). -/
theorem wordByte_be32 (b0 b1 b2 b3 : Byte) :
    wordByte (be32 b0 b1 b2 b3) 0 = b0 ∧ wordByte (be32 b0 b1 b2 b3) 1 = b1 ∧
      wordByte (be32 b0 b1 b2 b3) 2 = b2 ∧ wordByte (be32 b0 b1 b2 b3) 3 = b3 := by
  unfold wordByte be32
  refine ⟨?_, ?_, ?_, BitVec.extractLsb'_append_eq_right⟩
  · rw [BitVec.extractLsb'_append_eq_of_le (by decide), BitVec.extractLsb'_append_eq_of_le (by decide)]
    exact BitVec.extractLsb'_append_eq_left
  · rw [BitVec.extractLsb'_append_eq_of_le (by decide), BitVec.extractLsb'_append_eq_of_le (by decide)]
    exact BitVec.extractLsb'_append_eq_right
  · rw [BitVec.extractLsb'_append_eq_of_le (by decide)]
    exact BitVec.extractLsb'_append_eq_right

theorem operandBytes_be32 (b0 b1 b2 b3 : Byte) {n : Nat} (hn : n ≤ 4) :
    operandBytes (be32 b0 b1 b2 b3) n = [b0, b1, b2, b3].take n := by
  obtain ⟨h0, h1, h2, h3⟩ := wordByte_be32 b0 b1 b2 b3
  have hall : (List.range 4).map (wordByte (be32 b0 b1 b2 b3)) = [b0, b1, b2, b3] := by
    simp [List.range_succ, h0, h1, h2, h3]
  rw [← hall, ← List.map_take, List.take_range, Nat.min_eq_left hn, operandBytes]

/-- The statements of `ABSORB nb, v` absorb the operand bytes of v. -/
theorem HostReady.after_hostAbsorb {nb : BitVec 3} {v : Word} {bs : List Byte} {p : List Stmt} {s : State}
    (hs : HostReady (hostAbsorb nb v ++ p) s) (hnb : nb.toNat ≤ 4) (hbs : operandBytes v nb.toNat = bs)
    (hfit : s.count.toNat + bs.length ≤ 2 ^ 64 - 1) :
    ∃ t, Reaches s t ∧ HostReady p t ∧ SameMessage t (absorbBytes bs s) := by
  rw [hostAbsorb_eq] at hs
  rw [← hbs, operandBytes_length] at hfit
  obtain ⟨a, hsa, ha, hdin, hma⟩ := hs.after_wr_dataIn
  obtain ⟨b, hab, hb, hmb⟩ := ha.after_wr_absorb hnb (by rwa [hma.count_eq])
  obtain ⟨t, hbt, ht, hmt⟩ := hb.after_poll
  refine ⟨t, .head hsa (.head hab (.head hbt (.refl t))), ht, ?_⟩
  rw [hdin, hbs] at hmb
  exact hmt.trans (hmb.trans (hma.after_absorbBytes bs))

theorem toNat_count_absorbBytes {bs : List Byte} {s : State} (hfit : s.count.toNat + bs.length ≤ 2 ^ 64 - 1) :
    (absorbBytes bs s).count.toNat = s.count.toNat + bs.length := by
  rw [absorbBytes_count, BitVec.toNat_add, BitVec.toNat_ofNat]
  omega

/-- The statements of `ABSORBS m` absorb m, group by group (30_encoding.md R55). -/
theorem HostReady.after_hostAbsorbs {m : List Byte} {p : List Stmt} {s : State} (hs : HostReady (hostAbsorbs m ++ p) s)
    (hfit : s.count.toNat + m.length ≤ 2 ^ 64 - 1) :
    ∃ t, Reaches s t ∧ HostReady p t ∧ SameMessage t (absorbBytes m s) := by
  induction m using hostAbsorbs.induct generalizing s with
  | case1 b0 b1 b2 b3 m ih =>
    have hgroup : operandBytes (be32 b0 b1 b2 b3) 4 = [b0, b1, b2, b3] := operandBytes_be32 b0 b1 b2 b3 le_rfl
    rw [hostAbsorbs, List.append_assoc] at hs
    have hsplit : b0 :: b1 :: b2 :: b3 :: m = [b0, b1, b2, b3] ++ m := rfl
    rw [hsplit, List.length_append] at hfit
    obtain ⟨u, hsu, hu, hmu⟩ := hs.after_hostAbsorb (by decide) hgroup (by omega)
    have hcount : u.count.toNat = s.count.toNat + [b0, b1, b2, b3].length := by
      rw [hmu.count_eq, toNat_count_absorbBytes (by omega)]
    obtain ⟨t, hut, ht, hmt⟩ := ih hu (by omega)
    refine ⟨t, hsu.trans hut, ht, ?_⟩
    rw [hsplit, absorbBytes_append]
    exact hmt.trans (hmu.after_absorbBytes m)
  | case2 b0 b1 b2 =>
    have hgroup : operandBytes (be32 b0 b1 b2 0) 3 = [b0, b1, b2] := operandBytes_be32 b0 b1 b2 0 (by decide)
    rw [hostAbsorbs] at hs
    exact hs.after_hostAbsorb (by decide) hgroup hfit
  | case3 b0 b1 =>
    have hgroup : operandBytes (be32 b0 b1 0 0) 2 = [b0, b1] := operandBytes_be32 b0 b1 0 0 (by decide)
    rw [hostAbsorbs] at hs
    exact hs.after_hostAbsorb (by decide) hgroup hfit
  | case4 b0 =>
    have hgroup : operandBytes (be32 b0 0 0 0) 1 = [b0] := operandBytes_be32 b0 0 0 0 (by decide)
    rw [hostAbsorbs] at hs
    exact hs.after_hostAbsorb (by decide) hgroup hfit
  | case5 => exact ⟨s, .refl s, hs, rfl, rfl, rfl⟩

/-- Settles O21: the host is ready to run the statements, and each group of ABSORBS absorbs its bytes. -/
theorem absorbsStatementsDeliverTheBytes : Obligations.AbsorbsStatementsDeliverTheBytes := by
  unfold Obligations.AbsorbsStatementsDeliverTheBytes
  intro s m rest hidle hlat hlc hturns hfit hprogram
  obtain ⟨t, ⟨n, hrun⟩, ht, hmt⟩ := HostReady.after_hostAbsorbs ⟨⟨hidle, hlat, hlc⟩, hturns, hprogram⟩ hfit
  exact ⟨n, t, hrun, ht.program_eq, ht.streaming.idle, ht.streaming.lc_eq, hmt.h_eq, hmt.count_eq, hmt.buf_eq⟩

end Sys2Proof.Machine
end

section
/-! SUPPORT for O6: the engine's steps of a running command, composed through SEQ (40_commands.md R56, 41_compression.md
R77). -/

namespace Sys2Proof.Machine

/-! ### Engine steps in a row, with BUSY kept -/

/-- `n` engine steps lead from `s` to `t`, and before each of them BUSY is what it is at `s`. -/
structure RunsTo (n : Nat) (s t : State) : Prop where
  run_eq : engineRun n s = t
  busy_eq : ∀ k < n, (engineRun k s).busy = s.busy

theorem RunsTo.single {s t : State} (h : engineStep s = t) : RunsTo 1 s t :=
  ⟨h, fun k hk => by rw [Nat.lt_one_iff.mp hk, engineRun_zero]⟩

/-- Only where a run goes on must BUSY be kept: the last step may complete the command. -/
theorem RunsTo.trans {m n : Nat} {s t u : State} (hst : RunsTo m s t) (hb : t.busy = s.busy) (htu : RunsTo n t u) :
    RunsTo (m + n) s u := by
  refine ⟨by rw [engineRun_add, hst.run_eq, htu.run_eq], fun k hk => ?_⟩
  obtain hlt | hge := Nat.lt_or_ge k m
  · exact hst.busy_eq k hlt
  · obtain ⟨j, rfl⟩ := Nat.exists_eq_add_of_le hge
    rw [engineRun_add, hst.run_eq, htu.busy_eq j (by omega), hb]

theorem RunsTo.head {n : Nat} {s t u : State} (h : engineStep s = t) (hb : t.busy = s.busy) (htu : RunsTo n t u) :
    RunsTo (n + 1) s u :=
  Nat.add_comm 1 n ▸ (RunsTo.single h).trans hb htu

/-- A run depends on its start through BUSY and the first step only. -/
theorem RunsTo.of_engineStep_eq {n : Nat} {s s' t : State} (h : RunsTo (n + 1) s t) (hb : s'.busy = s.busy)
    (hstep : engineStep s' = engineStep s) : RunsTo (n + 1) s' t := by
  refine ⟨by rw [← h.run_eq, engineRun_succ, engineRun_succ, hstep], fun k hk => ?_⟩
  cases k with
  | zero => rfl
  | succ k => rw [hb, ← h.busy_eq (k + 1) hk, engineRun_succ, engineRun_succ, hstep]

/-! ### The steps of one COMPRESS -/

/-- (SCHED, t) to (SCHED, 63): the schedule words from t on (41_compression.md R72). -/
theorem runsTo_firstRound (n : Nat) (t : Fin 64) (ht : 16 ≤ t.val) (hn : t.val + (n + 1) = 64) (s : State) :
    RunsTo (n + 1) (goto ⟨.sched, t⟩ s) (goto ⟨.round, 0⟩ { s with w := expandFrom (n + 1) t.val s.w }) := by
  induction n generalizing t s with
  | zero =>
    have hstep := engineStep_sched (goto_seq ⟨.sched, t⟩ s) ht
    rw [if_pos (by omega)] at hstep
    exact .single hstep
  | succ n ih =>
    have hstep := engineStep_sched (goto_seq ⟨.sched, t⟩ s) ht
    rw [if_neg (by omega)] at hstep
    have hval : (t + 1).val = t.val + 1 := Fin.val_add_one_of_lt' (by omega)
    have hrest := ih (t + 1) (by omega) (by omega) { s with w := expandAt t.val s.w }
    rw [hval] at hrest
    exact .head hstep rfl hrest

/-- (ROUND, t) to (ROUND, 63): the rounds from t on (41_compression.md R74). -/
theorem runsTo_feed (n : Nat) (t : Fin 64) (hn : t.val + (n + 1) = 64) (s : State) :
    RunsTo (n + 1) (goto ⟨.round, t⟩ s) (goto ⟨.feed, 0⟩ { s with work := roundsFrom (n + 1) t.val s.w s.work }) := by
  induction n generalizing t s with
  | zero =>
    have hstep := engineStep_round (goto_seq ⟨.round, t⟩ s)
    rw [if_pos (by omega)] at hstep
    exact .single hstep
  | succ n ih =>
    have hstep := engineStep_round (goto_seq ⟨.round, t⟩ s)
    rw [if_neg (by omega)] at hstep
    have hval : (t + 1).val = t.val + 1 := Fin.val_add_one_of_lt' (by omega)
    have hrest := ih (t + 1) (by omega) { s with work := roundAt t.val s.w s.work }
    rw [hval] at hrest
    exact .head hstep rfl hrest

/-- Before the feed-forward of a COMPRESS: the whole schedule and the 64 rounds (41_compression.md R71 to R74). -/
def beforeFeed (s : State) : State :=
  goto ⟨.feed, 0⟩ { s with w := scheduleOf s.buf s.w, work := finalWork s.h s.buf s.w }

/-- One step for (SCHED, 0), 48 for the schedule and 64 for the rounds. -/
theorem runsTo_beforeFeed (s : State) : RunsTo 113 (goto ⟨.sched, 0⟩ s) (beforeFeed s) := by
  have hload := RunsTo.single (engineStep_sched_zero (goto_seq ⟨.sched, 0⟩ s))
  have hsched := runsTo_firstRound 47 16 (by decide) rfl { s with w := parseBlock s.buf s.w, work := loadWork s.h }
  have hround := runsTo_feed 63 0 rfl { s with w := scheduleOf s.buf s.w, work := loadWork s.h }
  rw [beforeFeed, finalWork_eq]
  rw [scheduleOf_eq] at hround ⊢
  exact (hload.trans rfl hsched).trans rfl hround

/-- A COMPRESS inside a command takes 114 steps and comes back to the captured place (41_compression.md R77). -/
theorem runsTo_compress (q : Seq) (s : State) (hresume : s.latch.resume = none) :
    RunsTo 114 (startCompress (some q) s) (goto q (compress s)) := by
  have hfeed : engineStep (beforeFeed (startCompress (some q) s)) = goto q (compress s) := by
    have hlatch : { s.latch with resume := none } = s.latch := by rw [← hresume]
    rw [engineStep_feed_some rfl rfl]
    simp only [beforeFeed, goto, startCompress, compress, hlatch]
  exact (runsTo_beforeFeed (startCompress (some q) s)).trans rfl (.single hfeed)

/-- FINALIZE's last COMPRESS takes 114 steps, and the last of them completes the command (42_finalize.md R85). -/
theorem runsTo_complete_consume (s : State) :
    RunsTo 114 (startCompress none s) (complete (consume (compress s))) :=
  (runsTo_beforeFeed (startCompress none s)).trans rfl (.single (engineStep_feed_none rfl rfl))

/-! ### The steps of one byte -/

/-- The engine steps that `n` bytes from the offset `off` on take: one for each byte, and 114 for each block they fill. -/
def byteSteps (off n : Nat) : Nat := n + 114 * ((off + n) / 64)

theorem byteSteps_zero {off : Nat} (h : off < 64) : byteSteps off 0 = 0 := by
  unfold byteSteps; omega

theorem byteSteps_one_of_lt {off : Nat} (h : off < 63) : byteSteps off 1 = 1 := by
  unfold byteSteps; omega

/-- The last byte of a block brings a COMPRESS. -/
theorem byteSteps_63_one : byteSteps 63 1 = 1 + 114 := rfl

/-- The bytes after the first go on at the next offset. -/
theorem byteSteps_succ (off n : Nat) :
    byteSteps off (n + 1) = byteSteps off 1 + byteSteps ((off + 1) % 64) n := by
  unfold byteSteps; omega

theorem offset_lt (s : State) : offset s < 64 := Nat.mod_lt _ (by decide)

/-- An engine step that places a byte and, where it fills the block, the COMPRESS after it are one absorb_byte
(40_commands.md R59). -/
theorem runsTo_absorbByte {b : Byte} {p q : Seq} {s : State} (hresume : s.latch.resume = none)
    (hstep : engineStep (goto p s) =
      if offset (placeByte b s) = 0 then startCompress (some q) (placeByte b s) else goto q (placeByte b s)) :
    RunsTo (byteSteps (offset s) 1) (goto p s) (goto q (absorbByte b s)) := by
  have hlt := offset_lt s
  have hoff := offset_placeByte b s
  obtain ⟨h0, h⟩ | ⟨h0, h⟩ := absorbByte_cases b s <;> rw [h]
  · have hlast : offset s = 63 := by omega
    rw [if_pos h0] at hstep
    rw [hlast, byteSteps_63_one]
    exact (RunsTo.single hstep).trans rfl (runsTo_compress q (placeByte b s) hresume)
  · rw [if_neg h0] at hstep
    rw [byteSteps_one_of_lt (by omega)]
    exact .single hstep

/-! ### INIT -/

/-- INIT has one engine step (40_commands.md R57). -/
theorem runsTo_init (s : State) : RunsTo 1 (accept .init s) (complete (initEffect (accept .init s))) :=
  .single (engineStep_init rfl rfl)

/-! ### ABSORB -/

/-- From (ABSORB, t): the bytes from t on, then the completion. -/
theorem runsTo_complete_absorbBytes {nb : BitVec 3} (n : Nat) (t : Fin 64) (ht : t.val + n = nb.toNat) {s : State}
    (hop : s.latch.op = .absorb nb) (hresume : s.latch.resume = none) :
    RunsTo (byteSteps (offset s) n + 1) (goto ⟨.absorb, t⟩ s)
      (complete (absorbBytes ((List.range' t.val n).map (wordByte s.latch.din)) s)) := by
  induction n generalizing t s with
  | zero =>
    rw [byteSteps_zero (offset_lt s)]
    exact .single (engineStep_absorb_end (s := goto ⟨.absorb, t⟩ s) rfl hop (by omega))
  | succ n ih =>
    have hval : (t + 1).val = t.val + 1 := Fin.val_add_one_of_lt' (by omega)
    obtain ⟨-, -, hbusy, -, -, hlatch, -⟩ := (absorbByte_onlyMessageMoved (wordByte s.latch.din t.val) s).fields
    have hbyte : RunsTo (byteSteps (offset s) 1) (goto ⟨.absorb, t⟩ s)
        (goto ⟨.absorb, t + 1⟩ (absorbByte (wordByte s.latch.din t.val) s)) :=
      runsTo_absorbByte hresume (engineStep_absorb_byte (s := goto ⟨.absorb, t⟩ s) rfl hop (by omega))
    have hrest := ih (t + 1) (by omega) (by rw [hlatch, hop]) (by rw [hlatch, hresume])
    rw [hlatch, hval, offset_absorbByte] at hrest
    rw [byteSteps_succ, Nat.add_assoc]
    exact hbyte.trans hbusy hrest

/-- An accepted ABSORB nb runs to its effect of one atomic step (40_commands.md R58). -/
theorem runsTo_absorb (nb : BitVec 3) (s : State) :
    RunsTo (byteSteps (offset s) nb.toNat + 1) (accept (.absorb nb) s)
      (complete (absorbEffect nb.toNat (accept (.absorb nb) s))) := by
  have h := runsTo_complete_absorbBytes nb.toNat 0 (Nat.zero_add _) (s := accept (.absorb nb) s) rfl rfl
  rwa [Fin.val_zero, ← List.range_eq_range'] at h

/-! ### FINALIZE -/

/-- After (PAD, 0) the bit count stays captured (42_finalize.md R81). -/
theorem takeBitCount_eq_self {s : State} (h : s.seq.t = 0 → s.latch.bc = bitCount s.count) : takeBitCount s = s := by
  unfold takeBitCount
  split
  · rw [← h ‹_›]
  · rfl

/-- (PAD, t) with the bit count captured (42_finalize.md R82 to R84). -/
theorem engineStep_goto_pad {t : Fin 64} {s : State} (hop : s.latch.op = .finalize)
    (hbc : t = 0 → s.latch.bc = bitCount s.count) :
    engineStep (goto ⟨.pad, t⟩ s) =
      if offset (placeByte (padByte t) s) = 0 then startCompress (some ⟨.pad, t + 1⟩) (placeByte (padByte t) s)
      else if offset (placeByte (padByte t) s) = 56 then
        startCompress none (writeLength s.latch.bc (placeByte (padByte t) s))
      else goto ⟨.pad, t + 1⟩ (placeByte (padByte t) s) := by
  have hstep := engineStep_pad (s := goto ⟨.pad, t⟩ s) rfl hop
  rw [takeBitCount_eq_self hbc] at hstep
  exact hstep

/-- From (PAD, t) with `n` zeros left after this byte, up to offset 56: the padding bytes, then the length field, the
last COMPRESS and the scrub (42_finalize.md R82 to R85). -/
theorem runsTo_complete_pad (n : Nat) (t : Fin 64) (ht : t.val + n < 64) {s : State} (hop : s.latch.op = .finalize)
    (hresume : s.latch.resume = none) (hbc : t = 0 → s.latch.bc = bitCount s.count)
    (hroom : (offset s + (n + 1)) % 64 = 56) :
    RunsTo (byteSteps (offset s) (n + 1) + 114) (goto ⟨.pad, t⟩ s)
      (complete (consume (compress (writeLength s.latch.bc
        (absorbBytes (padByte t :: List.replicate n 0x00) s))))) := by
  induction n generalizing t s with
  | zero =>
    have hoff : offset (placeByte (padByte t) s) = 56 := (offset_placeByte _ _).trans hroom
    have hstep := engineStep_goto_pad hop hbc
    rw [hoff, if_neg (by decide), if_pos rfl] at hstep
    have hbyte : absorbByte (padByte t) s = placeByte (padByte t) s := if_neg (by simp [hoff])
    have hlt := offset_lt s
    rw [byteSteps_one_of_lt (by omega), List.replicate_zero, absorbBytes_cons, absorbBytes_nil, hbyte]
    exact (RunsTo.single hstep).trans rfl (runsTo_complete_consume _)
  | succ n ih =>
    have hval : (t + 1).val = t.val + 1 := Fin.val_add_one_of_lt' (by omega)
    have hne : t + 1 ≠ 0 := fun h0 => by simp [h0] at hval
    have hpad : padByte (t + 1) = 0x00 := if_neg hne
    have h56 : ¬ offset (placeByte (padByte t) s) = 56 := by rw [offset_placeByte]; omega
    have hstep := engineStep_goto_pad hop hbc
    rw [if_neg h56] at hstep
    obtain ⟨-, -, hbusy, -, -, hlatch, -⟩ := (absorbByte_onlyMessageMoved (padByte t) s).fields
    have hrest := ih (t + 1) (by omega) (s := absorbByte (padByte t) s) (by rw [hlatch, hop]) (by rw [hlatch, hresume])
      (absurd · hne) (by rw [offset_absorbByte]; omega)
    rw [hlatch, hpad, offset_absorbByte] at hrest
    rw [byteSteps_succ, Nat.add_assoc]
    exact (runsTo_absorbByte hresume hstep).trans hbusy hrest

/-- FINALIZE's effect, with the padding as absorbed bytes (42_finalize.md R80 to R85). -/
theorem finalizeEffect_eq (s : State) :
    finalizeEffect s =
      consume (compress (writeLength (bitCount s.count) (absorbBytes (padBytes (offset s)) s))) := by
  rw [← padZeros_absorbByte]
  rfl

/-- The bit count is taken in the first step, and taking it before changes nothing. -/
theorem engineStep_takeBitCount {s : State} (hseq : s.seq = ⟨.pad, 0⟩) (hop : s.latch.op = .finalize) :
    engineStep s = engineStep (takeBitCount s) := by
  have htake : takeBitCount (takeBitCount s) = takeBitCount s :=
    takeBitCount_eq_self fun _ => by simp [takeBitCount, hseq]
  have hop' : (takeBitCount s).latch.op = .finalize := by rw [takeBitCount_latch_op, hop]
  rw [engineStep_pad hseq hop, engineStep_pad ((takeBitCount_seq s).trans hseq) hop', htake]

/-- What the latch holds beside the bit count does not matter to the last steps of FINALIZE. -/
theorem complete_digest_withOperands (bc : Long) (l : Latch) {v : Word} {u : State} (hv : u.dataIn = v) :
    complete (consume (compress (writeLength bc (withOperands v l u)))) =
      complete (consume (compress (writeLength bc u))) := by
  subst hv
  rfl

/-- An accepted FINALIZE runs to its effect of one atomic step (42_finalize.md R80). -/
theorem runsTo_finalize (s : State) :
    RunsTo (byteSteps (offset s) ((119 - offset s) % 64 + 1) + 114) (accept .finalize s)
      (complete (finalizeEffect (accept .finalize s))) := by
  have hlt := offset_lt s
  have hrun := runsTo_complete_pad ((119 - offset s) % 64) 0 (s := takeBitCount (accept .finalize s))
    (by rw [Fin.val_zero]; omega) rfl rfl (fun _ => rfl) (show (offset s + _) % 64 = 56 by omega)
  have heffect : complete (finalizeEffect (accept .finalize s)) =
      complete (consume (compress (writeLength (bitCount s.count)
        (absorbBytes (padBytes (offset s)) (takeBitCount (accept .finalize s)))))) := by
    have htake : takeBitCount (accept .finalize s) =
        withOperands s.dataIn ⟨.finalize, 0, bitCount s.count, none⟩ (accept .finalize s) := rfl
    obtain ⟨-, -, -, -, hdataIn, -⟩ :=
      (absorbBytes_onlyMessageMoved (padBytes (offset s)) (accept .finalize s)).fields
    rw [finalizeEffect_eq, htake, absorbBytes_withOperands]
    exact (complete_digest_withOperands _ _ hdataIn).symm
  rw [heffect]
  exact hrun.of_engineStep_eq rfl (engineStep_takeBitCount rfl rfl)

/-- Settles O6: each command runs through its places to its atomic effect; the longest is a FINALIZE of 64 padding bytes
and two compressions. -/
theorem engineStepsEqualTheAtomicEffect : Obligations.EngineStepsEqualTheAtomicEffect := by
  unfold Obligations.EngineStepsEqualTheAtomicEffect
  intro s _
  have hlt := offset_lt s
  refine ⟨?init, fun nb hnb _ => ?absorb, fun _ => ?finalize⟩
  case init => exact ⟨1, by decide, (runsTo_init s).run_eq, (runsTo_init s).busy_eq⟩
  case absorb => exact ⟨_, by unfold byteSteps; omega, (runsTo_absorb nb s).run_eq, (runsTo_absorb nb s).busy_eq⟩
  case finalize => exact ⟨_, by unfold byteSteps; omega, (runsTo_finalize s).run_eq, (runsTo_finalize s).busy_eq⟩

end Sys2Proof.Machine

end

section
/-! SUPPORT for O1, O2, O3, O5, O14, O19, O43, O44 and O55: the commands at the write of their word (40_commands.md R56
to R61). -/

namespace Sys2Proof.Machine

/-! ### The commands of an idle engine -/

section
variable {s : State} (hb : s.busy = false)
include hb

theorem exec_nop : exec .nop s = .next s := by
  simp [exec, execNop, hb]

theorem exec_init : exec .init s = .next (runAccepted s.lat.init .init initEffect (clearErrors s)) := by
  simp [exec, execInit, hb]

/-- An ABSORB that passes the checks of R92 is accepted. -/
theorem exec_absorb_accepted {nb : BitVec 3} (hlc : s.lc = .active) (hnb : nb.toNat ≤ 4)
    (hfit : s.count.toNat + nb.toNat ≤ 2 ^ 64 - 1) :
    exec (.absorb nb) s = .next (runAccepted (absorbLatency s.lat nb.toNat (absorbCompressions nb.toNat s))
      (.absorb nb) (absorbEffect nb.toNat) s) := by
  rw [exec, execAbsorb, if_neg (by simp [hb]), if_neg (by omega), if_neg (not_not.mpr hlc), if_neg (by omega)]

theorem exec_finalize_accepted (hlc : s.lc = .active) :
    exec .finalize s =
      .next (runAccepted (finalizeLatency s.lat (finalizeCompressions s)) .finalize finalizeEffect s) := by
  simp [exec, execFinalize, hb, hlc]

end

/-- Settles O1: an idle engine does nothing, and a busy one rejects NOP like every other word. -/
theorem nopCompletesWithoutEffect : Obligations.NopCompletesWithoutEffect := by
  unfold Obligations.NopCompletesWithoutEffect
  exact ⟨decode_encode (i := .nop) rfl, fun s => ⟨exec_nop, fun hb => exec_of_busy hb .nop⟩⟩

/-- Settles O5: the checks pass, and with a positive latency an accepted command is its acceptance. -/
theorem positiveLatencyOnlyAccepts : Obligations.PositiveLatencyOnlyAccepts := by
  unfold Obligations.PositiveLatencyOnlyAccepts
  intro s ⟨hb, _, _⟩ hlc
  refine ⟨fun nb hnb hfit hlat => ?absorb, fun hlat => ?finalize⟩
  case absorb => rw [exec_absorb_accepted hb hlc hnb hfit, runAccepted_of_ne_zero hlat]; rfl
  case finalize => rw [exec_finalize_accepted hb hlc, runAccepted_of_ne_zero hlat]; rfl

/-! ### Acceptance and completion around an effect -/

/-- Completing a command with no effect undoes its acceptance (40_commands.md R56). -/
theorem complete_accept {s : State} (hs : Idle s) (d : Instr) : complete (accept d s) = s := by
  obtain ⟨hb, hseq, hlatch⟩ := hs
  cases s
  cases hb
  cases hseq
  cases hlatch
  rfl

/-- The message path reads none of what acceptance writes. -/
theorem absorbByte_accept (b : Byte) (d : Instr) (s : State) : absorbByte b (accept d s) = accept d (absorbByte b s) :=
  (apply_ite (accept d) (offset (placeByte b s) = 0) (compress (placeByte b s)) (placeByte b s)).symm

theorem absorbBytes_accept (bs : List Byte) (d : Instr) (s : State) :
    absorbBytes bs (accept d s) = accept d (absorbBytes bs s) := by
  induction bs generalizing s with
  | nil => rfl
  | cons b bs ih => rw [absorbBytes_cons, absorbByte_accept, ih, absorbBytes_cons]

theorem Idle.after_absorbBytes {s : State} (hs : Idle s) (bs : List Byte) : Idle (absorbBytes bs s) := by
  obtain ⟨hseq, -, hbusy, -, -, hlatch, -⟩ := (absorbBytes_onlyMessageMoved bs s).fields
  rwa [Idle, hbusy, hseq, hlatch]

/-- Settles O3: acceptance and completion leave the absorbed bytes as the whole of the command. -/
theorem absorbTakesTheFirstBytes : Obligations.AbsorbTakesTheFirstBytes := by
  unfold Obligations.AbsorbTakesTheFirstBytes
  intro s nb hs hlc hnb hfit hlat
  have heffect : complete (absorbEffect nb.toNat (accept (.absorb nb) s)) =
      absorbBytes (operandBytes s.dataIn nb.toNat) s :=
    (congrArg complete (absorbBytes_accept _ _ s)).trans (complete_accept (hs.after_absorbBytes _) _)
  rw [exec_absorb_accepted hs.1 hlc hnb hfit, hlat, runAccepted_zero, heffect]
  rfl

/-- INIT from acceptance to completion is its effect, with the error bits cleared (40_commands.md R57). -/
theorem complete_initEffect_accept {s : State} (hs : Idle s) :
    complete (initEffect (accept .init (clearErrors s))) = initEffect (clearErrors s) :=
  congrArg (fun u => initEffect (clearErrors u)) (complete_accept hs .init)

/-- Settles O2: at latency 0 the accepted INIT is its effect, and at a positive one it is accepted and the engine brings
that effect in one step. -/
theorem initLoadsTheInitialHash : Obligations.InitLoadsTheInitialHash := by
  unfold Obligations.InitLoadsTheInitialHash
  refine ⟨decode_encode (i := .init) rfl, fun s => ⟨fun hb => exec_of_busy hb .init, fun hs =>
    ⟨initEffect (clearErrors s), rfl, fun hlat => ?atOnce, fun hlat => ?accepted⟩⟩⟩
  case atOnce => rw [exec_init hs.1, hlat, runAccepted_zero, complete_initEffect_accept hs]
  case accepted =>
    rw [exec_init hs.1, runAccepted_of_ne_zero hlat]
    exact ⟨_, 1, rfl, rfl, rfl, rfl, rfl, rfl, rfl, (runsTo_init _).run_eq.trans (complete_initEffect_accept hs)⟩

/-! ### absorb_byte -/

/-- The written byte and the others, index by index (40_commands.md R59). -/
theorem placeByte_eq (b : Byte) (s : State) :
    placeByte b s = { s with
      buf := Vector.ofFn fun i => if i.val = s.count.toNat % 64 then b else s.buf[i]
      count := BitVec.ofNat 64 (s.count.toNat + 1) } := by
  have hbuf : (placeByte b s).buf = Vector.ofFn fun i => if i.val = s.count.toNat % 64 then b else s.buf[i] := by
    ext1 i hi
    simp [placeByte_buf_getElem, offset, eq_comm]
  have hcount : (placeByte b s).count = BitVec.ofNat 64 (s.count.toNat + 1) := by
    rw [placeByte_count, BitVec.ofNat_add, BitVec.ofNat_toNat, BitVec.setWidth_eq]
    rfl
  rw [← hbuf, ← hcount]
  rfl

/-- Settles O14: the two outcomes of absorb_byte. -/
theorem absorbByteRule : Obligations.AbsorbByteRule := by
  unfold Obligations.AbsorbByteRule
  intro b s
  refine ⟨_, rfl, ?_⟩
  rw [← placeByte_eq]
  exact ⟨fun h => if_neg h, fun h => ⟨if_pos h, absorbByte_buf b s⟩⟩

/-! ### Streaming -/

/-- FINALIZE of a latency 0 engine within a message (42_finalize.md R80). -/
theorem Streaming.presentCommand_finalize {s : State} (hs : Streaming s) :
    presentCommand 0x00000003 s = .next (complete (finalizeEffect (accept .finalize s))) := by
  obtain ⟨⟨hb, -, -⟩, hlat, hlc⟩ := hs
  exact (presentCommand_of_command hb (by decide)).trans (exec_finalize_atomic hb hlat hlc)

theorem Streaming.after_words_finalize {s t : State} {ws : List (Word × Word)} (ht : Streaming t)
    (hrun : runWords ws s = .next t) :
    runWords (ws ++ [(0, 0x00000003)]) s = .next (complete (finalizeEffect (accept .finalize (writeDataIn 0 t)))) := by
  have hu : Streaming (writeDataIn 0 t) := ⟨ht.idle, ht.atomic, ht.lc_eq⟩
  rw [runWords_append_of_next hrun, runWords_cons_of_next hu.presentCommand_finalize, runWords]

/-- FINALIZE's digest is a function of H, COUNT and BUF. -/
theorem SameMessage.finalizeEffect_h {s t : State} (h : SameMessage s t) :
    (finalizeEffect s).h = (finalizeEffect t).h :=
  (sharesMessage_of_live h.h_eq h.count_eq fun _ _ => by rw [h.buf_eq]).finalizeEffect_h

theorem SameMessage.symm {s t : State} (h : SameMessage s t) : SameMessage t s :=
  ⟨h.h_eq.symm, h.count_eq.symm, h.buf_eq.symm⟩

/-- Settles O19: the words of a message act as absorb_byte on their bytes, and FINALIZE reads what these leave. -/
theorem streamingEquivalence : Obligations.StreamingEquivalence := by
  unfold Obligations.StreamingEquivalence
  intro s hidle hlat hlc
  have hs : Streaming s := ⟨hidle, hlat, hlc⟩
  refine ⟨fun ws hw hfit => ?effect, fun ws ws' hw hw' hmsg hfit => ?digest⟩
  case effect =>
    obtain ⟨t, ht, -, hmt⟩ := hs.after_words ws hw hfit
    exact ⟨t, ht, hmt.h_eq, hmt.count_eq, hmt.buf_eq, by rw [hmt.count_eq, toNat_count_absorbBytes hfit]⟩
  case digest =>
    obtain ⟨t, ht, hst, hmt⟩ := hs.after_words ws hw hfit
    obtain ⟨t', ht', hst', hmt'⟩ := hs.after_words ws' hw' (hmsg ▸ hfit)
    have hsame : SameMessage t t' := hmt.trans (hmsg ▸ hmt'.symm)
    have haccept : SameMessage (accept .finalize (writeDataIn 0 t)) (accept .finalize (writeDataIn 0 t')) :=
      ⟨hsame.h_eq, hsame.count_eq, hsame.buf_eq⟩
    exact ⟨_, _, hst.after_words_finalize ht, hst'.after_words_finalize ht', rfl, rfl, haccept.finalizeEffect_h⟩

/-! ### A step that presents a word -/

/-- The write of a word to CMD presents it (20_memory.md R34, 40_commands.md R56). -/
theorem step_of_wr_cmd {s : State} {c : Word} {rest : List Stmt} (hh : hostMoves s = true)
    (hp : s.host.program = wr .cmd c :: rest) :
    step s = presentCommand c (withProgram rest (withTurns (laterTurns s) s)) := by
  rw [step_of_wr hh hp, if_pos (Access.admitted_ofReg .cmd)]
  rfl

/-- Settles O43: the step presents the word, at the state with the statement and the turn used up. -/
theorem stepRunsTheDecodedCommand : Obligations.StepRunsTheDecodedCommand := by
  unfold Obligations.StepRunsTheDecodedCommand
  intro s c rest hh hp
  rw [step_of_wr_cmd hh hp]
  exact ⟨fun i hb hc => presentCommand_of_command hb hc, fun why hb hc => presentCommand_of_illegal hb hc,
    fun hb => presentCommand_of_busy (s := withProgram rest (withTurns (laterTurns s) s)) hb c⟩

/-- Settles O44: with the loaded statement and turn used up, the state is the one before the load. -/
theorem fetchWordIsPresentedNext : Obligations.FetchWordIsPresentedNext := by
  unfold Obligations.FetchWordIsPresentedNext
  intro s w hw
  have hstep : step (s.withFetchWord 32 w) = presentCommand (BitVec.ofNat 32 (w % 2 ^ 32)) s := step_of_wr_cmd rfl rfl
  rw [hstep, Nat.mod_eq_of_lt hw]

/-! ### What no command touches -/

/-- DATA_IN, the parameters, the coming turns and the host are the same in both states. -/
structure SameSurroundings (s t : State) : Prop where
  dataIn_eq : t.dataIn = s.dataIn
  lat_eq : t.lat = s.lat
  turns_eq : t.turns = s.turns
  host_eq : t.host = s.host

theorem SameSurroundings.trans {s t u : State} (h : SameSurroundings s t) (h' : SameSurroundings t u) :
    SameSurroundings s u :=
  ⟨h'.dataIn_eq.trans h.dataIn_eq, h'.lat_eq.trans h.lat_eq, h'.turns_eq.trans h.turns_eq, h'.host_eq.trans h.host_eq⟩

theorem OnlyMessageMoved.sameSurroundings {s t : State} (h : OnlyMessageMoved s t) : SameSurroundings s t := by
  obtain ⟨-, -, -, -, hdataIn, -, hlat, hturns, hhost⟩ := h.fields
  exact ⟨hdataIn, hlat, hturns, hhost⟩

theorem sameSurroundings_finalizeEffect (s : State) : SameSurroundings s (finalizeEffect s) := by
  rw [finalizeEffect_eq]
  exact (absorbBytes_onlyMessageMoved (padBytes (offset s)) s).sameSurroundings.trans ⟨rfl, rfl, rfl, rfl⟩

theorem sameSurroundings_raise (e : Err) (s : State) : SameSurroundings s (raise e s) :=
  ⟨raise_dataIn e s, raise_lat e s, raise_turns e s, raise_host e s⟩

/-- Acceptance and completion touch nothing outside the block, so an accepted command touches no more than its effect. -/
theorem sameSurroundings_runAccepted {f : State → State} (hf : ∀ u, SameSurroundings u (f u)) (n : Nat) (d : Instr)
    (s : State) : SameSurroundings s (runAccepted n d f s) := by
  have haccept : SameSurroundings s (accept d s) := ⟨rfl, rfl, rfl, rfl⟩
  obtain ⟨-, h⟩ | ⟨-, h⟩ := runAccepted_cases n d f s <;> rw [h]
  · exact (haccept.trans (hf (accept d s))).trans ⟨rfl, rfl, rfl, rfl⟩
  · exact haccept

theorem exec_sameSurroundings (i : Instr) (s : State) : ∃ t, exec i s = .next t ∧ SameSurroundings s t := by
  obtain ⟨e, h⟩ | ⟨-, h⟩ | ⟨-, -, h⟩ | ⟨nb, -, -, -, -, -, h⟩ | ⟨-, -, -, h⟩ := exec_cases i s <;> refine ⟨_, h, ?_⟩
  · exact sameSurroundings_raise e s
  · exact ⟨rfl, rfl, rfl, rfl⟩
  · have hclear : SameSurroundings s (clearErrors s) := ⟨rfl, rfl, rfl, rfl⟩
    exact hclear.trans (sameSurroundings_runAccepted (f := initEffect) (fun _ => ⟨rfl, rfl, rfl, rfl⟩) _ _ _)
  · exact sameSurroundings_runAccepted (fun u => (absorbBytes_onlyMessageMoved _ u).sameSurroundings) _ _ _
  · exact sameSurroundings_runAccepted sameSurroundings_finalizeEffect _ _ _

theorem engineStep_err (s : State) (e : Err) : (engineStep s).err e = s.err e := by
  rw [engineStep_onlyEngineMoved s]
  cases e <;> rfl

/-- Settles O55: by the outcomes of exec, and by what an engine step moves. -/
theorem commandsTouchOnlyTheBlock : Obligations.CommandsTouchOnlyTheBlock := by
  unfold Obligations.CommandsTouchOnlyTheBlock
  refine ⟨fun i s => ?_, fun s => ?_⟩
  · obtain ⟨t, ht, hdataIn, hlat, hturns, hhost⟩ := exec_sameSurroundings i s
    exact ⟨t, ht, hdataIn, hlat, hturns, hhost⟩
  · obtain ⟨hturns, hhost, hlat⟩ := engineStep_outside s
    exact ⟨engineStep_dataIn s, hlat, hturns, hhost, engineStep_err s⟩

end Sys2Proof.Machine

end

section
/-! SUPPORT for O7, O8, O9, O10, O11, O12, O13, O56 and O57: the compression transform (41_compression.md R62 to R78). -/

namespace Sys2Proof.Machine

/-! ### The bit functions -/

/-- The model's rotation is the library's. -/
theorem rotr_eq_rotateRight (x : Word) {n : Nat} (h : n < 32) : rotr x n = x.rotateRight n := by
  rw [BitVec.rotateRight_eq_rotateRightAux_of_lt h]
  rfl

/-- Bit i of a rotation (41_compression.md R62). -/
theorem rotr_getLsbD (x : Word) {n i : Nat} (hn : n < 32) (hi : i < 32) :
    (rotr x n).getLsbD i = x.getLsbD ((i + n) % 32) := by
  rw [rotr_eq_rotateRight x hn, BitVec.getLsbD_rotateRight, Nat.mod_eq_of_lt hn]
  obtain hlt | hge := Nat.lt_or_ge i (32 - n)
  · rw [show (i + n) % 32 = n + i by omega]
    simp [hlt]
  · rw [show (i + n) % 32 = i - (32 - n) by omega]
    simp [hi, Nat.not_lt.mpr hge]

/-- Bit i of a shift: bit i + n where there is one, and 0 elsewhere (41_compression.md R63). -/
theorem shiftRight_getLsbD (x : Word) (n i : Nat) :
    (x >>> n).getLsbD i = (decide (i + n < 32) && x.getLsbD (i + n)) := by
  rw [BitVec.getLsbD_ushiftRight, Nat.add_comm n i]
  obtain hlt | hge := Nat.lt_or_ge (i + n) 32
  · simp [hlt]
  · simp [BitVec.getLsbD_of_ge x (i + n) hge]

/-- Settles O7: the rotation bit by bit. -/
theorem rotrMovesEachBit : Obligations.RotrMovesEachBit := by
  unfold Obligations.RotrMovesEachBit
  exact fun x n i _ hn hi => rotr_getLsbD x hn hi

/-- Settles O56: the rotations and the shift bit by bit, under the exclusive or. -/
theorem sigmaFunctionsBitByBit : Obligations.SigmaFunctionsBitByBit := by
  unfold Obligations.SigmaFunctionsBitByBit
  refine ⟨fun x n => ?_, fun x i hi => ⟨?_, ?_, ?_, ?_⟩⟩
  · rw [BitVec.toNat_ushiftRight, Nat.shiftRight_eq_div_pow]
  · simp (disch := omega) only [smallSigma0, BitVec.getLsbD_xor, rotr_getLsbD, shiftRight_getLsbD]
  · simp (disch := omega) only [smallSigma1, BitVec.getLsbD_xor, rotr_getLsbD, shiftRight_getLsbD]
  · simp (disch := omega) only [bigSigma0, BitVec.getLsbD_xor, rotr_getLsbD]
  · simp (disch := omega) only [bigSigma1, BitVec.getLsbD_xor, rotr_getLsbD]

theorem ch_getLsbD (x y z : Word) {i : Nat} (hi : i < 32) :
    (ch x y z).getLsbD i = if x.getLsbD i then y.getLsbD i else z.getLsbD i := by
  simp only [ch, BitVec.getLsbD_xor, BitVec.getLsbD_and, BitVec.getLsbD_not, hi]
  cases x.getLsbD i <;> simp

theorem maj_getLsbD (x y z : Word) (i : Nat) :
    (maj x y z).getLsbD i =
      ((x.getLsbD i && y.getLsbD i) ^^ (x.getLsbD i && z.getLsbD i) ^^ (y.getLsbD i && z.getLsbD i)) := by
  simp only [maj, BitVec.getLsbD_xor, BitVec.getLsbD_and]

/-- The exclusive or of the three pairwise conjunctions is the majority. -/
theorem xor_and_eq_true_iff_two_le (a b c : Bool) :
    ((a && b) ^^ (a && c) ^^ (b && c)) = true ↔ 2 ≤ a.toNat + b.toNat + c.toNat := by
  decide +revert

/-- Settles O8: Ch by the bit of x, and Maj by the eight cases of three bits. -/
theorem chAndMajBitByBit : Obligations.ChAndMajBitByBit := by
  unfold Obligations.ChAndMajBitByBit
  intro x y z i hi
  exact ⟨ch_getLsbD x y z hi, by rw [maj_getLsbD, xor_and_eq_true_iff_two_le]⟩

/-! ### The table K -/

/-- The numbers below n with the property p, in order, are its first ones. -/
theorem nth_eq_getElem_filter_range (p : Nat → Prop) [DecidablePred p] (n i : Nat)
    (hi : i < ((List.range n).filter (p ·)).length) : Nat.nth p i = ((List.range n).filter (p ·))[i] := by
  induction n with
  | zero => simp at hi
  | succ n ih =>
    have hlen : ((List.range n).filter (p ·)).length = Nat.count p n := by
      rw [Nat.count, List.countP_eq_length_filter]
    simp only [List.range_succ, List.filter_append] at hi ⊢
    obtain hlt | hge := Nat.lt_or_ge i ((List.range n).filter (p ·)).length
    · rw [List.getElem_append_left hlt, ih hlt]
    · by_cases hp : p n
      · have hcount : i = Nat.count p n := by
          simp only [List.length_append, List.filter_singleton, hp, decide_true, cond_true, List.length_singleton] at hi
          omega
        simp [hcount, hp, hlen, Nat.nth_count]
      · simp only [hp, List.length_append, List.filter_singleton, decide_false, cond_false, List.length_nil] at hi
        omega

/-- The first 64 primes. -/
def firstPrimes : List Nat :=
  [2, 3, 5, 7, 11, 13, 17, 19, 23, 29, 31, 37, 41, 43, 47, 53] ++
  [59, 61, 67, 71, 73, 79, 83, 89, 97, 101, 103, 107, 109, 113, 127, 131] ++
  [137, 139, 149, 151, 157, 163, 167, 173, 179, 181, 191, 193, 197, 199, 211, 223] ++
  [227, 229, 233, 239, 241, 251, 257, 263, 269, 271, 277, 281, 283, 293, 307, 311]

/-- No number from 2 to the square root of n, and below 18, divides n. -/
def noFactorBelow18 (n : Nat) : Bool :=
  (List.range' 2 16).all fun m => n % m ≠ 0 || n < m * m

/-- Below 18 * 18 trial division by the numbers below 18 finds the primes. -/
theorem prime_iff_noFactorBelow18 {n : Nat} (hn : n < 18 * 18) :
    Nat.Prime n ↔ 2 ≤ n ∧ noFactorBelow18 n = true := by
  rw [Nat.prime_def_le_sqrt]
  refine and_congr_right fun _ => ?_
  simp only [noFactorBelow18, List.all_eq_true, List.mem_range'_1, Bool.or_eq_true, decide_eq_true_eq,
    Nat.le_sqrt, Nat.dvd_iff_mod_eq_zero]
  refine ⟨fun h m hm => ?_, fun h m h2 hle => ?_⟩
  · obtain hlt | hge := Nat.lt_or_ge n (m * m)
    · exact .inr hlt
    · exact .inl (h m hm.1 hge)
  · have hm : m < 18 := Nat.mul_self_lt_mul_self_iff.mp (hle.trans_lt hn)
    exact (h m ⟨h2, hm⟩).resolve_right (Nat.not_lt.mpr hle)

theorem filter_prime_range_312 : (List.range 312).filter (Nat.Prime ·) = firstPrimes := by
  have hfilter : (List.range 312).filter (Nat.Prime ·) =
      (List.range 312).filter fun n => 2 ≤ n && noFactorBelow18 n := by
    refine List.filter_congr fun n hn => ?_
    have hlt := List.mem_range.mp hn
    simp [prime_iff_noFactorBelow18 (show n < 18 * 18 by omega)]
  rw [hfilter]
  decide +kernel

theorem nth_prime_eq_getElem_firstPrimes (i : Nat) (hi : i < firstPrimes.length) :
    Nat.nth Nat.Prime i = firstPrimes[i] := by
  simp only [← filter_prime_range_312] at hi ⊢
  exact nth_eq_getElem_filter_range Nat.Prime 312 i hi

/-- The bracket of each cube root, with the integer part found among the numbers below 8 (41_compression.md R70). -/
theorem K_cubeRoot_bracket : ∀ i : Fin 64, ∃ q : Fin 8,
    (q.val * 2 ^ 32 + (K i.val).toNat) ^ 3 ≤ firstPrimes[i.val] * 2 ^ 96 ∧
      firstPrimes[i.val] * 2 ^ 96 < (q.val * 2 ^ 32 + (K i.val).toNat + 1) ^ 3 := by
  decide +kernel

/-- Settles O9: the (i+1)-th prime read from the list of the first 64. -/
theorem roundConstantsAreCubeRootFractions : Obligations.RoundConstantsAreCubeRootFractions := by
  unfold Obligations.RoundConstantsAreCubeRootFractions
  intro i
  rw [nth_prime_eq_getElem_firstPrimes i.val i.isLt]
  exact K_cubeRoot_bracket i

/-! ### The message scheduler -/

/-- Steps from t on leave each word they write as R72 gives it from the words of the outcome: no later step moves what it
was made of. -/
theorem expandFrom_getElem_recurrence (n t : Nat) (w : Schedule) (i : Nat) (ht : 16 ≤ t) (hi : i < 64) (hge : t ≤ i)
    (hlt : i < t + n) :
    (expandFrom n t w)[i] = smallSigma1 (expandFrom n t w)[i - 2] + (expandFrom n t w)[i - 7] +
      smallSigma0 (expandFrom n t w)[i - 15] + (expandFrom n t w)[i - 16] := by
  induction n generalizing t w with
  | zero => omega
  | succ n ih =>
    rw [expandFrom_succ]
    obtain rfl | hne := Nat.eq_or_lt_of_le hge
    · simp (disch := omega) only [expandFrom_getElem_of_lt, expandAt_getElem_of_ne, expandAt_getElem_self]
    · exact ih (t + 1) (expandAt t w) (by omega) hne (by omega)

/-- The schedule's first words are the block's (41_compression.md R71). -/
theorem scheduleOf_getElem_lt (b : Block) (w : Schedule) (j : Nat) (hj : j < 16) :
    (scheduleOf b w)[j] = blockWord b ⟨j, hj⟩ := by
  rw [scheduleOf_eq, expandFrom_getElem_of_lt 48 16 j _ (by omega) hj, parseBlock_getElem_lt]

/-- Settles O10: the words of the block stand before the expansion, and its 48 steps are those of R72. -/
theorem scheduleSatisfiesItsRecurrence : Obligations.ScheduleSatisfiesItsRecurrence := by
  unfold Obligations.ScheduleSatisfiesItsRecurrence
  refine fun b w => ⟨fun j => scheduleOf_getElem_lt b w j.val j.isLt, fun t ht => ?_⟩
  rw [scheduleOf_eq]
  exact expandFrom_getElem_recurrence 48 16 _ t le_rfl ht.2 ht.1 (by omega)

/-! ### The round processor -/

/-- Round t, t = 0..63 (41_compression.md R74). -/
theorem roundAt_of_lt {t : Nat} (ht : t < 64) (w : Schedule) (v : Work) :
    roundAt t w v =
      ⟨roundT1 t w[t] v + roundT2 v, v.a, v.b, v.c, v.d + roundT1 t w[t] v, v.e, v.f, v.g⟩ := by
  rw [roundAt, dif_pos ht]

/-- Settles O11: the round by its T1 and T2; the loading and the feed-forward are their definitions. -/
theorem roundProcessorFollowsItsRules : Obligations.RoundProcessorFollowsItsRules := by
  unfold Obligations.RoundProcessorFollowsItsRules
  refine ⟨fun h => rfl, fun t ht w v t1 t2 h1 h2 => ?_, fun h v => rfl⟩
  rw [h1, h2]
  exact roundAt_of_lt ht w v

/-! ### COMPRESS -/

/-- a..h after the rounds do not depend on what W held before (41_compression.md R76). -/
theorem finalWork_congr (h : Hash) (b : Block) (w w' : Schedule) : finalWork h b w = finalWork h b w' := by
  rw [finalWork_eq, finalWork_eq, scheduleOf_congr b w w']

/-- COMPRESS with anything in the place of the old W (41_compression.md R76). -/
theorem compress_eq (s : State) (w₀ : Schedule) :
    compress s = { s with
      w := scheduleOf s.buf w₀
      work := finalWork s.h s.buf w₀
      h := feedForward s.h (finalWork s.h s.buf w₀) } := by
  rw [scheduleOf_congr s.buf w₀ s.w, finalWork_congr s.h s.buf w₀ s.w]
  rfl

/-- Settles O12: the old W does not matter to the schedule or to the rounds. -/
theorem compressDependsOnHashAndBlockOnly : Obligations.CompressDependsOnHashAndBlockOnly := by
  unfold Obligations.CompressDependsOnHashAndBlockOnly
  refine fun s w₀ => ⟨scheduleOf s.buf w₀, finalWork s.h s.buf w₀, rfl, ?_, compress_eq s w₀, ?_⟩
  · rw [finalWork_eq, roundsFrom_eq_foldl, List.range_eq_range']
  · rw [compressHash, finalWork_congr s.h s.buf w₀]

/-! ### The engine inside a COMPRESS -/

/-- Where a schedule or round step goes: the next index of the same phase, or after 63 the place `q`. -/
theorem seq_succ_or_eq_dite (p : Phase) (q : Seq) {t : Nat} (ht : t < 64) :
    (if t = 63 then q else ⟨p, (⟨t, ht⟩ : Fin 64) + 1⟩ : Seq) = if h : t + 1 < 64 then ⟨p, t + 1, h⟩ else q := by
  by_cases hlast : t = 63
  · rw [if_pos hlast, dif_neg (by omega)]
  · have hsucc : t + 1 < 64 := by omega
    have hval : (⟨t, ht⟩ : Fin 64) + 1 = ⟨t + 1, hsucc⟩ := Fin.ext (Fin.val_add_one_of_lt' hsucc)
    rw [if_neg hlast, dif_pos hsucc, hval]

/-- Settles O57: the step of each place, with the words the block parse leaves. -/
theorem eachPlaceOfCompressDoesItsRule : Obligations.EachPlaceOfCompressDoesItsRule := by
  unfold Obligations.EachPlaceOfCompressDoesItsRule
  refine fun s => ⟨fun hs => ?_, fun t ht hs => ?_, fun t ht hs => ?_, fun hs => ⟨?_, fun q hq => ?_⟩⟩
  · refine ⟨parseBlock s.buf s.w, engineStep_sched_zero hs, fun j => ?_, fun t ht => ?_⟩
    · exact parseBlock_getElem_lt s.buf s.w j.val j.isLt
    · exact parseBlock_getElem_ge s.buf s.w t ht.1 ht.2
  · rw [engineStep_sched hs ht.1, seq_succ_or_eq_dite, expandAt, dif_pos ht]
  · rw [engineStep_round hs, seq_succ_or_eq_dite]
  · cases hq : s.latch.resume with
    | none => rw [engineStep_feed_none hs hq, complete_h, consume_h]
    | some q => rw [engineStep_feed_some hs hq]
  · exact engineStep_feed_some hs hq

/-- Settles O13: 113 steps to (FEED, 0), and the feed-forward back to the place of the command. -/
theorem compressIs114EngineSteps : Obligations.CompressIs114EngineSteps := by
  unfold Obligations.CompressIs114EngineSteps
  intro s q hs hq
  have hstart : goto ⟨.sched, 0⟩ s = s := by rw [goto, ← hs]
  have hrun : engineRun 113 s = beforeFeed s := by rw [← (runsTo_beforeFeed s).run_eq, hstart]
  calc engineRun 114 s = engineStep (engineRun 113 s) := engineRun_add 113 1 s
    _ = engineStep (beforeFeed s) := by rw [hrun]
    _ = _ := engineStep_feed_some rfl hq

end Sys2Proof.Machine
end

section
/-! SUPPORT for O4, O15, O16, O17, O37 and O58: the padding, the length field and the digest of FINALIZE (42_finalize.md
R80 to R86). -/

namespace Sys2Proof.Machine

/-! ### The padding -/

theorem offset_absorbBytes (bs : List Byte) (s : State) :
    offset (absorbBytes bs s) = (offset s + bs.length) % 64 := by
  rw [offset, absorbBytes_count, BitVec.toNat_add, BitVec.toNat_ofNat, offset]
  omega

/-- Settles O15: the loop absorbs the zeros that are missing to offset 56. -/
theorem paddingReachesOffset56 : Obligations.PaddingReachesOffset56 := by
  unfold Obligations.PaddingReachesOffset56
  rintro s z rfl
  have hpad : padZeros 64 (absorbByte 0x80 s) =
      absorbBytes (List.replicate ((119 - offset s) % 64) 0x00) (absorbByte 0x80 s) := by
    rw [padZeros_absorbByte, padBytes, absorbBytes_cons]
  have hlt := offset_lt s
  refine ⟨by omega, hpad, ?offset, ?count⟩
  case offset =>
    rw [padZeros_absorbByte, offset_absorbBytes, padBytes_length]
    omega
  case count => rw [hpad, absorbBytes_count, absorbByte_count, List.length_replicate]

/-! ### The bit count -/

theorem bitCount_eq_ofNat (c : Long) : bitCount c = BitVec.ofNat 64 (c.toNat * 8) := by
  rw [BitVec.ofNat_mul, BitVec.ofNat_toNat, BitVec.setWidth_eq]
  rfl

theorem bitCount_eq_append (c : Long) : bitCount c = c.extractLsb' 0 61 ++ (0 : BitVec 3) := by
  rw [bitCount, show (8 : Long) = BitVec.twoPow 64 3 from rfl, BitVec.mul_twoPow_eq_shiftLeft,
    BitVec.shiftLeft_eq_concat_of_lt (by decide)]
  rfl

/-- In the first step of a FINALIZE the bit count is the one of the COUNT before it (42_finalize.md R81). -/
theorem takeBitCount_latch_bc {s : State} (h : s.seq.t = 0) : (takeBitCount s).latch.bc = bitCount s.count := by
  rw [takeBitCount, if_pos h]

/-- Settles O58: wherever the first padding byte leads, the captured bit count stays and COUNT has moved by one. -/
theorem engineTakesTheBitCountFirst : Obligations.EngineTakesTheBitCountFirst := by
  unfold Obligations.EngineTakesTheBitCountFirst
  intro s hseq hop
  have hbc := takeBitCount_latch_bc (s := s) (by rw [hseq])
  rw [engineStep_pad hseq hop]
  dsimp only
  split_ifs <;> exact ⟨hbc, by simp⟩

/-! ### FINALIZE's effect -/

/-- Beside the digest in H, FINALIZE leaves DONE and the scrub, and moves nothing else (42_finalize.md R85). -/
theorem finalizeEffect_eq_update (s : State) :
    finalizeEffect s = { s with
      h := (finalizeEffect s).h, lc := .done, count := 0, buf := Vector.replicate 64 0, w := Vector.replicate 64 0
      work := Work.zero } := by
  have hmoved := absorbBytes_onlyMessageMoved (padBytes (offset s)) s
  rw [finalizeEffect_eq]
  generalize absorbBytes (padBytes (offset s)) s = u at hmoved ⊢
  rw [hmoved]
  rfl

/-- FINALIZE from acceptance to completion is its effect (42_finalize.md R80). -/
theorem complete_finalizeEffect_accept {s : State} (hs : Idle s) :
    complete (finalizeEffect (accept .finalize s)) = finalizeEffect s := by
  rw [finalizeEffect_eq, finalizeEffect_eq, absorbBytes_accept]
  exact congrArg (fun u => consume (compress (writeLength (bitCount s.count) u)))
    (complete_accept (hs.after_absorbBytes (padBytes (offset s))) .finalize)

/-- Settles O16: the product by 8 as a shift, and the effect as its rule states it. -/
theorem bitCountTruncatesAt64Bits : Obligations.BitCountTruncatesAt64Bits := by
  unfold Obligations.BitCountTruncatesAt64Bits
  refine ⟨fun c => ⟨?_, bitCount_eq_append c⟩, fun s => ⟨rfl, fun e => ?_⟩⟩
  · rw [bitCount_eq_ofNat, BitVec.toNat_ofNat]
  · rw [finalizeEffect_eq_update]
    cases e <;> rfl

/-! ### The length field -/

/-- Settles O17: the length field is `lengthBlock`, byte by byte. -/
theorem lengthFieldIsWrittenDirectly : Obligations.LengthFieldIsWrittenDirectly := by
  unfold Obligations.LengthFieldIsWrittenDirectly
  refine fun bc s => ⟨lengthBlock bc s.buf, rfl, fun j => ?_, fun i => lengthBlock_getElem_lt bc s.buf i i.isLt⟩
  rw [lengthBlock_getElem_ge bc s.buf _ (Nat.le_add_right ..), Nat.add_sub_cancel_left, longByte]

/-! ### The digest bytes -/

/-- Once the message is consumed, DIGESTk shows H[k] (10_state.md R26). -/
theorem digestReg_of_done {s : State} (hlc : s.lc = .done) (hb : s.busy = false) (k : Fin 8) :
    digestReg s k = s.h[k] :=
  if_pos ⟨hlc, hb⟩

/-- Settles O37: byte 4k + j is byte j of DIGESTk. -/
theorem digestBytesAreBigEndian : Obligations.DigestBytesAreBigEndian := by
  unfold Obligations.DigestBytesAreBigEndian
  intro s k j hlc hb
  have hk : (⟨(4 * k.val + j.val) / 4, by omega⟩ : Fin 8) = k := Fin.ext (by simp only; omega)
  have hj : (4 * k.val + j.val) % 4 = j.val := by omega
  rw [digestByte, hk, hj, digestReg_of_done hlc hb, wordByte, Nat.sub_right_comm]

/-! ### The blocks of the padded message -/

/-- The bytes of BUF before the offset, and the padding bytes after them (42_finalize.md R82). -/
def bytesBeforeLength (s : State) : List Byte := s.buf.toList.take (offset s) ++ padBytes (offset s)

theorem bytesBeforeLength_length (s : State) : (bytesBeforeLength s).length = if offset s ≤ 55 then 56 else 120 := by
  have hlt := offset_lt s
  rw [bytesBeforeLength, List.length_append, List.length_take, Vector.length_toList, padBytes_length]
  split <;> omega

/-- FINALIZE absorbs these bytes from the block boundary on, the message bytes having gone before. -/
theorem chained_bytesBeforeLength (s : State) :
    Chained s.h (bytesBeforeLength s) (absorbBytes (padBytes (offset s)) s) :=
  (chained_take s).after_absorbBytes (padBytes (offset s))

/-- The message bytes, then 0x80, then zeros. -/
theorem bytesBeforeLength_getD (s : State) (i : Nat) :
    (bytesBeforeLength s).getD i 0 =
      if i < offset s then s.buf.toList.getD i 0 else if i = offset s then 0x80 else 0x00 := by
  have hlt := offset_lt s
  have hlen : (s.buf.toList.take (offset s)).length = offset s := by
    rw [List.length_take, Vector.length_toList]; omega
  rw [bytesBeforeLength]
  obtain hi | rfl | hi := Nat.lt_trichotomy i (offset s)
  · rw [if_pos hi, List.getD_append _ _ _ _ (hlen.symm ▸ hi), List.getD_eq_getElem?_getD, List.getElem?_take_of_lt hi,
      ← List.getD_eq_getElem?_getD]
  · rw [if_neg (lt_irrefl _), if_pos rfl, List.getD_append_right _ _ _ _ hlen.le, hlen, Nat.sub_self]
    rfl
  · obtain ⟨k, rfl⟩ := Nat.exists_eq_add_of_lt hi
    rw [if_neg (by omega), if_neg (by omega), List.getD_append_right _ _ _ _ (by omega), hlen,
      show offset s + k + 1 - offset s = k + 1 by omega, padBytes, List.getD_cons_succ, List.getD_eq_getElem?_getD]
    exact List.getElem?_getD_replicate_default_eq 0x00 _ k

/-- The block with the message bytes before the offset, 0x80 there and zeros after it (42_finalize.md R84). -/
def markedBlock (s : State) : Block :=
  Vector.ofFn fun i => if i.val < offset s then s.buf[i] else if i.val = offset s then 0x80 else 0x00

theorem markedBlock_eq (s : State) : markedBlock s = blockAt (bytesBeforeLength s) 0 := by
  ext1 i hi
  rw [blockAt_getElem, Nat.mul_zero, Nat.zero_add, bytesBeforeLength_getD]
  simp [markedBlock, hi]

/-- The bytes from 56 on do not matter to the block with the length field (42_finalize.md R83). -/
theorem lengthBlock_congr (bc : Long) {b b' : Block} (h : ∀ i (_ : i < 56), b[i] = b'[i]) :
    lengthBlock bc b = lengthBlock bc b' := by
  ext1 i hi
  by_cases hlt : i < 56
  · rw [lengthBlock_getElem_lt bc b i hlt, lengthBlock_getElem_lt bc b' i hlt, h i hlt]
  · rw [lengthBlock_getElem_ge bc b i (by omega) hi, lengthBlock_getElem_ge bc b' i (by omega) hi]

/-! ### FINALIZE's digest -/

/-- The last compression reads what the padding leaves, with the length field. -/
theorem finalizeEffect_h (s : State) :
    (finalizeEffect s).h =
      compressHash (absorbBytes (padBytes (offset s)) s).h
        (lengthBlock (bitCount s.count) (absorbBytes (padBytes (offset s)) s).buf) := by
  rw [finalizeEffect_eq, consume_h, compress_h_eq_compressHash, writeLength_h, writeLength_buf]

/-- One compression: the padding ends in the block of the message bytes (42_finalize.md R84). -/
theorem finalizeEffect_h_of_le {s : State} (h : offset s ≤ 55) :
    (finalizeEffect s).h = compressHash s.h (lengthBlock (bitCount s.count) (markedBlock s)) := by
  have hlen : (bytesBeforeLength s).length = 56 := by rw [bytesBeforeLength_length, if_pos h]
  obtain ⟨hhash, -, htail⟩ := chained_bytesBeforeLength s
  have hchain : chain s.h (bytesBeforeLength s) = s.h := by rw [chain, hlen]; rfl
  have hbuf : ∀ i (_ : i < 56), (absorbBytes (padBytes (offset s)) s).buf[i] = (markedBlock s)[i] := fun i hi => by
    rw [htail i (by omega) (by omega), markedBlock_eq, blockAt_getElem, hlen]
  rw [finalizeEffect_h, hhash, hchain, lengthBlock_congr _ hbuf]

/-- Two compressions: the padding fills the block of the message bytes and goes on in a block of zeros (42_finalize.md
R84). -/
theorem finalizeEffect_h_of_ge {s : State} (h : 56 ≤ offset s) :
    (finalizeEffect s).h =
      compressHash (compressHash s.h (markedBlock s)) (lengthBlock (bitCount s.count) (Vector.ofFn fun _ => 0x00)) := by
  have hlt := offset_lt s
  have hlen : (bytesBeforeLength s).length = 120 := by rw [bytesBeforeLength_length, if_neg (by omega)]
  obtain ⟨hhash, -, htail⟩ := chained_bytesBeforeLength s
  have hchain : chain s.h (bytesBeforeLength s) = compressHash s.h (markedBlock s) := by
    rw [chain, hlen, markedBlock_eq]; rfl
  have hbuf : ∀ i (_ : i < 56),
      (absorbBytes (padBytes (offset s)) s).buf[i] = (Vector.ofFn fun _ : Fin 64 => (0x00 : Byte))[i] := fun i hi => by
    rw [htail i (by omega) (by omega), bytesBeforeLength_getD, if_neg (by omega), if_neg (by omega),
      Vector.getElem_ofFn]
  rw [finalizeEffect_h, hhash, hchain, lengthBlock_congr _ hbuf]

/-- The block with the length field, index by index (42_finalize.md R81, R83). -/
theorem lengthBlock_bitCount_ofFn (c : Long) (f : Fin 64 → Byte) :
    lengthBlock (bitCount c) (Vector.ofFn f) = Vector.ofFn fun i => if i.val < 56 then f i else
      (BitVec.ofNat 64 (c.toNat * 8)).extractLsb' (63 - 8 * (i.val - 56) - 7) 8 := by
  ext1 i hi
  rw [Vector.getElem_ofFn]
  by_cases hlt : i < 56
  · rw [lengthBlock_getElem_lt _ _ i hlt, if_pos hlt, Vector.getElem_ofFn]
  · rw [lengthBlock_getElem_ge _ _ i (by omega) hi, if_neg hlt, longByte, bitCount_eq_ofNat, Nat.sub_right_comm]

/-- Settles O4: the effect is a scrub around the digest, and the digest is of one block or of two. -/
theorem finalizePadsCompressesAndScrubs : Obligations.FinalizePadsCompressesAndScrubs := by
  unfold Obligations.FinalizePadsCompressesAndScrubs
  intro s hs hlc hlat
  rw [exec_finalize_accepted hs.1 hlc, hlat, runAccepted_zero, complete_finalizeEffect_accept hs,
    finalizeEffect_eq_update]
  dsimp only
  split
  case isTrue h =>
    rw [finalizeEffect_h_of_le h, markedBlock, lengthBlock_bitCount_ofFn]
    rfl
  case isFalse h =>
    rw [finalizeEffect_h_of_ge (Nat.lt_of_not_le h), markedBlock, lengthBlock_bitCount_ofFn]
    rfl

end Sys2Proof.Machine

end

section
/-! SUPPORT for O23, O24, O25, O26, O27, O28, O29, O30, O45 and O52: the error bits and the steps around them
(60_exceptions.md R87 to R94, R100). -/

namespace Sys2Proof.Machine

/-! ### The error bits under each operation -/

section
variable (s : State) (e : Err)

@[simp] theorem accept_err (d : Instr) : (accept d s).err e = s.err e := by cases e <;> rfl
@[simp] theorem complete_err : (complete s).err e = s.err e := by cases e <;> rfl
@[simp] theorem clearErrors_err : (clearErrors s).err e = false := by cases e <;> rfl
@[simp] theorem resetBlock_err : (resetBlock s).err e = false := by cases e <;> rfl
@[simp] theorem withTurns_err (ts : List Turn) : (withTurns ts s).err e = s.err e := by cases e <;> rfl
@[simp] theorem withProgram_err (p : List Stmt) : (withProgram p s).err e = s.err e := by cases e <;> rfl
@[simp] theorem initEffect_err : (initEffect s).err e = s.err e := by cases e <;> rfl

@[simp] theorem absorbEffect_err (nb : Nat) : (absorbEffect nb s).err e = s.err e := by
  obtain ⟨-, -, -, herr, -⟩ := (absorbBytes_onlyMessageMoved (operandBytes s.latch.din nb) s).fields
  exact herr e

@[simp] theorem finalizeEffect_err : (finalizeEffect s).err e = s.err e := by
  rw [finalizeEffect_eq_update]
  cases e <;> rfl

/-- Raising an error sets its own bit and no other (60_exceptions.md R87). -/
@[simp] theorem raise_err (e' : Err) : (raise e s).err e' = (decide (e' = e) || s.err e') := by
  cases e <;> cases e' <;> rfl

end

/-- Acceptance and completion move no error bit, so an accepted command moves no more than its effect. -/
theorem runAccepted_err {f : State → State} (hf : ∀ u e, (f u).err e = u.err e) (n : Nat) (d : Instr) (s : State)
    (e : Err) : (runAccepted n d f s).err e = s.err e := by
  obtain ⟨-, h⟩ | ⟨-, h⟩ := runAccepted_cases n d f s <;> rw [h]
  · rw [complete_err, hf, accept_err]
  · exact accept_err s e d

/-! ### ILLEGAL words -/

theorem exists_eq_illegal_iff (v : Verdict) : (∃ why, v = .illegal why) ↔ v.command? = none := by
  cases v <;> simp [Verdict.command?]

/-- The four grounds of 60_exceptions.md R88: a reserved bit by the decoder's first check, the others by OP and NB. -/
theorem decode_eq_illegal_iff (c : Word) :
    (∃ why, decode c = .illegal why) ↔
      (rsv1Field c ≠ 0 ∨ rsv0Field c ≠ 0) ∨ 4 ≤ (opField c).toNat ∨ 5 ≤ (nbField c).toNat ∨
        (nbField c ≠ 0 ∧ opField c ≠ 2) := by
  by_cases hrsv : rsv1Field c ≠ 0 ∨ rsv0Field c ≠ 0
  · exact iff_of_true ⟨.reservedBit, if_pos hrsv⟩ (.inl hrsv)
  · rw [exists_eq_illegal_iff, decode, if_neg hrsv, or_iff_right hrsv]
    generalize opField c = op, nbField c = nb
    revert op nb
    decide

/-- Settles O24: the grounds of the decoder, and the ERR_CMD of an idle engine. -/
theorem illegalWordRaisesErrCmd : Obligations.IllegalWordRaisesErrCmd := by
  unfold Obligations.IllegalWordRaisesErrCmd
  exact fun c => ⟨decode_eq_illegal_iff c, fun s hb ⟨_, hc⟩ => presentCommand_of_illegal hb hc⟩

/-! ### The checks of a CMD write -/

/-- An accepted command, and NOP, raise no error; INIT clears the bits (60_exceptions.md R92, R93). -/
theorem exec_err_of_checks {s : State} {i : Instr} (hb : s.busy = false) (hwf : WellFormed i)
    (hlc : (∃ nb, i = .absorb nb) ∨ i = .finalize → s.lc = .active)
    (hfit : ∀ nb, i = .absorb nb → s.count.toNat + nb.toNat ≤ 2 ^ 64 - 1) :
    ∃ t, exec i s = .next t ∧ ∀ e, t.err e = if i = .init then false else s.err e := by
  cases i with
  | nop => exact ⟨s, exec_nop hb, fun _ => rfl⟩
  | init => exact ⟨_, exec_init hb, fun e => (runAccepted_err initEffect_err _ _ _ e).trans (clearErrors_err s e)⟩
  | absorb nb =>
    exact ⟨_, exec_absorb_accepted hb (hlc (.inl ⟨nb, rfl⟩)) (of_decide_eq_true hwf) (hfit nb rfl),
      runAccepted_err (fun u e => absorbEffect_err u e nb.toNat) _ _ _⟩
  | finalize => exact ⟨_, exec_finalize_accepted hb (hlc (.inr rfl)), runAccepted_err finalizeEffect_err _ _ _⟩

/-- Settles O23: one outcome for each check, in the order of R92. -/
theorem errorChecksInFixedOrder : Obligations.ErrorChecksInFixedOrder := by
  unfold Obligations.ErrorChecksInFixedOrder
  refine fun c s => ⟨fun hb => presentCommand_of_busy hb c, fun hb hc => ?illegal, fun hb hlc hc => ?sequence,
    fun nb hb hlc hc hcount => ?overflow, fun i hb hc hlc hfit => ?accepted⟩
  case illegal =>
    cases hdec : decode c with
    | command i => exact absurd hdec (hc i)
    | illegal why => exact presentCommand_of_illegal hb hdec
  case sequence =>
    obtain ⟨nb, hc⟩ | hc := hc <;> rw [presentCommand_of_command hb hc]
    · exact exec_absorb_not_active hb (toNat_le_of_decode_absorb hc) hlc
    · exact exec_finalize_not_active hb hlc
  case overflow =>
    rw [presentCommand_of_command hb hc]
    exact exec_absorb_overflow hb (toNat_le_of_decode_absorb hc) hlc hcount
  case accepted =>
    rw [presentCommand_of_command hb hc]
    exact exec_err_of_checks hb (wellFormed_of_decode hc) hlc hfit

/-- Settles O25: the lifecycle check, and DIGEST does not read ERR_SEQ. -/
theorem lifecycleViolationRaisesErrSeq : Obligations.LifecycleViolationRaisesErrSeq := by
  unfold Obligations.LifecycleViolationRaisesErrSeq
  exact fun s hb hlc =>
    ⟨fun nb hnb => exec_absorb_not_active hb hnb hlc, exec_finalize_not_active hb hlc, fun k => rfl⟩

/-- An accepted INIT is running, or its message has begun (40_commands.md R57). -/
theorem runAccepted_init_busy_or_active (n : Nat) (s : State) :
    (runAccepted n .init initEffect s).busy = true ∨ (runAccepted n .init initEffect s).lc = .active := by
  obtain ⟨-, h⟩ | ⟨-, h⟩ := runAccepted_cases n .init initEffect s <;> rw [h]
  · exact .inr rfl
  · exact .inl rfl

/-- FINALIZE raises ERR_BUSY, ERR_SEQ or nothing (60_exceptions.md R90). -/
theorem exec_finalize_errOvf {s t : State} (h : exec .finalize s = .next t) : t.errOvf = s.errOvf := by
  cases hb : s.busy with
  | true =>
    cases (exec_of_busy hb .finalize).symm.trans h
    rfl
  | false =>
    by_cases hlc : s.lc = .active
    · cases (exec_finalize_accepted hb hlc).symm.trans h
      exact runAccepted_err finalizeEffect_err _ _ _ .ovf
    · cases (exec_finalize_not_active hb hlc).symm.trans h
      rfl

/-- Settles O26: the counter check, and what the EMPTY engine after it takes. -/
theorem counterOverflowRaisesErrOvf : Obligations.CounterOverflowRaisesErrOvf := by
  unfold Obligations.CounterOverflowRaisesErrOvf
  refine ⟨fun s nb hb hlc hnb hcount => ?_, fun s t => exec_finalize_errOvf⟩
  have hb' : (raise .ovf s).busy = false := hb
  have hlc' : (raise .ovf s).lc ≠ .active := nofun
  exact ⟨exec_absorb_overflow hb hnb hlc hcount, fun nb' hnb' => exec_absorb_not_active hb' hnb' hlc',
    exec_finalize_not_active hb' hlc', _, exec_init hb',
    (runAccepted_err initEffect_err _ _ _ .ovf).trans (clearErrors_err _ .ovf), runAccepted_init_busy_or_active _ _⟩

/-! ### Raising an error -/

theorem getLsbD_of_extractLsb'_eq_ofBool {x : Word} {i : Nat} {b : Bool} (h : x.extractLsb' i 1 = BitVec.ofBool b) :
    x.getLsbD i = b := by
  simpa using congrArg (fun y => y.getLsbD 0) h

/-- The cause code of an error is the number of its bit in STATUS (60_exceptions.md §2). -/
theorem status_getLsbD_code (s : State) (e : Err) : (status s).getLsbD e.code = s.err e := by
  obtain ⟨-, -, -, hcmd, hseq, hovf, hbusy, -⟩ := status_fields s
  cases e with
  | cmd => exact getLsbD_of_extractLsb'_eq_ofBool hcmd
  | seq => exact getLsbD_of_extractLsb'_eq_ofBool hseq
  | ovf => exact getLsbD_of_extractLsb'_eq_ofBool hovf
  | busy => exact getLsbD_of_extractLsb'_eq_ofBool hbusy

theorem raise_lc (e : Err) (s : State) : (raise e s).lc = if e = .ovf then .empty else s.lc := by
  cases e <;> rfl

/-- Settles O30: the STATUS bit of the cause code is the error bit, and the rest is field by field. -/
theorem raisingAnErrorDiscardsTheCommand : Obligations.RaisingAnErrorDiscardsTheCommand := by
  unfold Obligations.RaisingAnErrorDiscardsTheCommand
  intro e s
  refine ⟨by simp [status_getLsbD_code], fun e' hne => by simp [hne], raise_h e s, raise_count e s, raise_buf e s,
    raise_w e s, raise_work e s, raise_dataIn e s, raise_busy e s, raise_lc e s⟩

/-! ### A word written while BUSY = 1 -/

theorem takeBitCount_raise_busy (s : State) : takeBitCount (raise .busy s) = raise .busy (takeBitCount s) := by
  unfold takeBitCount
  rw [raise_seq, apply_ite (raise .busy)]
  rfl

theorem absorbPhase_raise_busy (s : State) : absorbPhase (raise .busy s) = raise .busy (absorbPhase s) := by
  unfold absorbPhase
  rw [raise_latch]
  cases s.latch.op with
  | nop | init | finalize => rfl
  | absorb nb => simp only [apply_ite (raise .busy)]; rfl

theorem padPhase_raise_busy (s : State) : padPhase (raise .busy s) = raise .busy (padPhase s) := by
  unfold padPhase
  rw [raise_latch]
  cases s.latch.op with
  | nop | init | absorb nb => rfl
  | finalize => simp only [takeBitCount_raise_busy, apply_ite (raise .busy)]; rfl

theorem schedPhase_raise_busy (s : State) : schedPhase (raise .busy s) = raise .busy (schedPhase s) := by
  unfold schedPhase
  simp only [apply_ite (raise .busy)]
  rfl

theorem feedPhase_raise_busy (s : State) : feedPhase (raise .busy s) = raise .busy (feedPhase s) := by
  unfold feedPhase
  dsimp only
  rw [raise_latch]
  cases s.latch.resume <;> rfl

/-- No engine step reads ERR_BUSY (60_exceptions.md R91). -/
theorem engineStep_raise_busy (s : State) : engineStep (raise .busy s) = raise .busy (engineStep s) := by
  unfold engineStep
  rw [raise_seq]
  cases s.seq.phase with
  | idle => rfl
  | absorb => exact absorbPhase_raise_busy s
  | pad => exact padPhase_raise_busy s
  | sched => exact schedPhase_raise_busy s
  | round => rfl
  | feed => exact feedPhase_raise_busy s

/-- A busy engine rejects any word with ERR_BUSY. -/
theorem CommandOutcome.eq_raise_of_busy {c : Word} {s t : State} (h : CommandOutcome c s t) (hb : s.busy = true) :
    t = raise .busy s := by
  cases h with
  | busyError _ => rfl
  | illegal hidle | sequenceError hidle | overflow _ hidle | nop hidle | init _ hidle | absorb _ _ hidle
  | finalize _ hidle => cases hidle.symm.trans hb

/-- While BUSY = 1 a step other than a reset moves at most ERR_BUSY, and sets it (60_exceptions.md R91). -/
theorem step_err_of_busy {s t : State} (hb : s.busy = true) (hr : resetMoves s = false) (h : step s = .next t)
    (e : Err) : t.err e = s.err e ∨ (e = .busy ∧ t.err e = true) := by
  cases step_outcome h with
  | reset hr' => cases hr.symm.trans hr'
  | engine _ _ => exact .inl ((engineStep_err _ e).trans (withTurns_err s e _))
  | noCommand v a => exact .inl (by cases e <;> rfl)
  | command c rest _ hc =>
    rw [hc.eq_raise_of_busy hb]
    cases e with
    | busy => exact .inr ⟨rfl, rfl⟩
    | cmd | seq | ovf => exact .inl rfl

/-- Settles O27: BUSY is the first check, and neither an engine step nor another step while BUSY = 1 reads or moves more
than ERR_BUSY. -/
theorem commandWhileBusyIsDiscarded : Obligations.CommandWhileBusyIsDiscarded := by
  unfold Obligations.CommandWhileBusyIsDiscarded
  refine ⟨fun c s hb => presentCommand_of_busy hb c, engineStep_raise_busy, fun s t hb hr h => ?_⟩
  have herr := step_err_of_busy hb hr h
  refine ⟨(herr .cmd).resolve_right nofun, (herr .seq).resolve_right nofun, (herr .ovf).resolve_right nofun,
    fun hset => ?_⟩
  obtain hkept | ⟨-, hset'⟩ := herr .busy
  · exact hkept.trans hset
  · exact hset'

/-! ### The error bits over a step -/

/-- A presented word clears an error bit only as an INIT with BUSY = 0 (60_exceptions.md R93). -/
theorem CommandOutcome.err_cases {c : Word} {s t : State} (h : CommandOutcome c s t) :
    (∀ e, s.err e = true → t.err e = true) ∨ (s.busy = false ∧ decode c = .command .init) := by
  cases h with
  | busyError _ | illegal _ | sequenceError _ | overflow _ _ _ _ _ => exact .inl fun e he => by simp [he]
  | nop _ => exact .inl fun _ => id
  | init n hb hc => exact .inr ⟨hb, hc⟩
  | absorb n nb _ _ _ =>
    exact .inl fun e he => (runAccepted_err (fun u e => absorbEffect_err u e nb.toNat) n _ s e).trans he
  | finalize n _ _ _ => exact .inl fun e he => (runAccepted_err finalizeEffect_err n _ s e).trans he

theorem step_of_resetMoves {s : State} (h : resetMoves s = true) :
    step s = .next (resetBlock (withTurns (laterTurns s) s)) := by
  obtain ⟨-, ht⟩ | ⟨hr, -⟩ | ⟨hr, -⟩ := step_cases s
  · exact ht
  · cases hr.symm.trans h
  · cases hr.symm.trans h

section
variable {s : State} {c : Word} {rest : List Stmt} (hb : s.busy = false) (hh : hostMoves s = true)
  (hp : s.host.program = wr .cmd c :: rest)
include hb hh hp

/-- The write of a command's word with BUSY = 0 runs the command (40_commands.md R56). -/
theorem step_of_wr_command {i : Instr} (hc : decode c = .command i) :
    step s = exec i (withProgram rest (withTurns (laterTurns s) s)) :=
  (step_of_wr_cmd hh hp).trans
    (presentCommand_of_command (s := withProgram rest (withTurns (laterTurns s) s)) hb hc)

theorem step_of_wr_init (hc : decode c = .command .init) :
    step s = .next (runAccepted s.lat.init .init initEffect
      (clearErrors (withProgram rest (withTurns (laterTurns s) s)))) :=
  (step_of_wr_command hb hh hp hc).trans (exec_init (s := withProgram rest (withTurns (laterTurns s) s)) hb)

theorem step_of_wr_finalize (hlc : s.lc = .active) (hc : decode c = .command .finalize) :
    step s = .next (runAccepted (finalizeLatency s.lat (finalizeCompressions s)) .finalize finalizeEffect
      (withProgram rest (withTurns (laterTurns s) s))) :=
  (step_of_wr_command hb hh hp hc).trans
    (exec_finalize_accepted (s := withProgram rest (withTurns (laterTurns s) s)) hb hlc)

end

/-- Settles O29: of the outcomes of a step only the reset and a presented INIT clear a bit, and they clear all four. -/
theorem errorBitsAreSticky : Obligations.ErrorBitsAreSticky := by
  unfold Obligations.ErrorBitsAreSticky
  refine fun s t h => ⟨fun e he => ?sticky, fun hr e => ?reset, fun hb c hp hc e => ?init⟩
  case sticky =>
    cases step_outcome h with
    | reset hr => exact .inr (.inl hr)
    | engine _ _ => exact .inl ((engineStep_err _ e).trans ((withTurns_err s e _).trans he))
    | noCommand v a => exact .inl (by cases e <;> exact he)
    | command c rest hp hc =>
      obtain hkept | ⟨hb, hinit⟩ := hc.err_cases
      · exact .inl (hkept e (by simpa using he))
      · obtain ⟨hh, rest', hprogram⟩ := hp
        exact .inr (.inr ⟨hb, hh, _, c, rest', hprogram, Access.admitted_ofReg .cmd, rfl, hinit⟩)
  case reset =>
    cases (step_of_resetMoves hr).symm.trans h
    exact resetBlock_err _ e
  case init =>
    obtain ⟨hh, rest, hprogram⟩ := hp
    cases (step_of_wr_init hb hh hprogram hc).symm.trans h
    exact (runAccepted_err initEffect_err _ _ _ e).trans (clearErrors_err _ e)

/-! ### What stops the machine -/

/-- A host's turn is refused only for an access outside the contract (20_memory.md R33). -/
theorem hostTurn_next_or_refused (s : State) :
    (∃ t, hostTurn s = .next t) ∨
    (hostTurn s = .refused .accessOutsideContract ∧
      ∃ a rest, a.admitted = false ∧
        ((∃ v, s.host.program = .wr a v :: rest) ∨ ∃ x, s.host.program = .rd a x :: rest)) := by
  obtain ⟨-, h⟩ | ⟨a, v, rest, hp, ⟨-, h⟩ | ⟨ha, h⟩⟩ | ⟨a, x, rest, hp, ⟨-, h⟩ | ⟨ha, h⟩⟩ |
    ⟨rest, -, ⟨-, h⟩ | ⟨-, h⟩⟩ | ⟨x, v, rest, -, h⟩ := hostTurn_cases s
  case inr.inl.inl =>
    obtain ⟨t, ht⟩ := busWrite_next (regAt a.off) v (withProgram rest s)
    exact .inl ⟨t, h.trans ht⟩
  case inr.inl.inr => exact .inr ⟨h, a, rest, ha, .inl ⟨v, hp⟩⟩
  case inr.inr.inl.inr => exact .inr ⟨h, a, rest, ha, .inr ⟨x, hp⟩⟩
  all_goals exact .inl ⟨_, h⟩

/-- Settles O45: exec answers a next state, and of the agents only the host meets a refusal. -/
theorem onlyBadAccessesStopTheMachine : Obligations.OnlyBadAccessesStopTheMachine := by
  unfold Obligations.OnlyBadAccessesStopTheMachine
  refine ⟨fun i s => ?exec, fun s => ?step⟩
  case exec =>
    obtain ⟨t, ht, -⟩ := exec_sameSurroundings i s
    exact ⟨t, ht⟩
  case step =>
    obtain ⟨-, h⟩ | ⟨-, -, h⟩ | ⟨-, hh, h⟩ := step_cases s <;> rw [h]
    · exact .inl ⟨_, rfl⟩
    · exact .inl ⟨_, rfl⟩
    · obtain hnext | ⟨hrefused, hbad⟩ := hostTurn_next_or_refused (withTurns (laterTurns s) s)
      · exact .inl hnext
      · exact .inr ⟨hrefused, hh, hbad⟩

/-! ### An idle engine -/

/-- Settles O52: at IDLE the engine has no step, and a host with nothing pending does nothing. -/
theorem idleEngineKeepsItsState : Obligations.IdleEngineKeepsItsState := by
  unfold Obligations.IdleEngineKeepsItsState
  intro s ⟨hb, hseq, _⟩
  refine ⟨fun ts hts => ?engine, fun hts hp => ?host⟩
  case engine =>
    have hidle : engineStep (withTurns ts s) = withTurns ts s := engineStep_of_idle (congrArg Seq.phase hseq)
    rw [step, hts]
    exact congrArg _ hidle
  case host => simp [step, hostTurn, hts, hb, hp]

/-! ### FINALIZE then INIT without POLL -/

/-- With no turns given a running command goes on to its end (log entry 3). -/
theorem RunsTo.reaches {n : Nat} {s t : State} (h : RunsTo n s t) (hb : s.busy = true) (hturns : s.turns = []) :
    Reaches s t := by
  obtain ⟨hrun, hbusy⟩ := h
  induction n generalizing s with
  | zero => exact hrun ▸ .refl s
  | succ n ih =>
    have hstep : step s = .next (engineStep s) := by simp [step, hturns, hb]
    refine .head hstep ?_
    cases n with
    | zero => exact hrun ▸ .refl _
    | succ n =>
      have hb' : (engineStep s).busy = true := (hbusy 1 (by omega)).trans hb
      have hturns' : (engineStep s).turns = [] := (engineStep_outside s).1.trans hturns
      exact ih hb' hturns' hrun fun k hk => (hbusy (k + 1) (by omega)).trans (hb.trans hb'.symm)

/-- Whatever its latency, an accepted command comes to its effect when no turns are given. -/
theorem reaches_complete_of_runAccepted {n k : Nat} {d : Instr} {f : State → State} {s : State}
    (h : RunsTo n (accept d s) (complete (f (accept d s)))) (hturns : s.turns = []) :
    Reaches (runAccepted k d f s) (complete (f (accept d s))) := by
  obtain ⟨-, hk⟩ | ⟨-, hk⟩ := runAccepted_cases k d f s <;> rw [hk]
  · exact .refl _
  · exact h.reaches rfl hturns

/-- A rejected word leaves the run of the command as it was, with ERR_BUSY set (60_exceptions.md R91). -/
theorem RunsTo.with_busyError {n : Nat} {s t : State} (h : RunsTo n s t) : RunsTo n (raise .busy s) (raise .busy t) := by
  have hrun (k : Nat) (u : State) : engineRun k (raise .busy u) = raise .busy (engineRun k u) := by
    induction k generalizing u with
    | zero => rfl
    | succ k ih => rw [engineRun_succ, engineStep_raise_busy, ih, engineRun_succ]
  refine ⟨by rw [hrun, h.run_eq], fun k hk => ?_⟩
  rw [hrun, raise_busy, raise_busy, h.busy_eq k hk]

/-- The host with two command writes to come, and the turns `ts`. -/
def withFinalizeThenInit (ts : List Turn) (s : State) : State :=
  withProgram [wr .cmd 0x00000003, wr .cmd 0x00000001] (withTurns ts s)

/-- STATUS by its fields, the error bits as a function of the cause (10_state.md R24). -/
theorem status_eq_of_fields {s : State} {b : Bool} {l : Lc} {f : Err → Bool} (hb : s.busy = b) (hlc : s.lc = l)
    (herr : ∀ e, s.err e = f e) :
    status s = bit b ||| (l.code.setWidth 32 <<< 1) ||| (bit (f .cmd) <<< 8) ||| (bit (f .seq) <<< 9) |||
      (bit (f .ovf) <<< 10) ||| (bit (f .busy) <<< 11) := by
  rw [← hb, ← hlc, ← herr, ← herr, ← herr, ← herr]
  rfl

section
variable {s : State} {c : Word} {rest : List Stmt} (hb : s.busy = false) (hturns : s.turns = [])
  (hp : s.host.program = wr .cmd c :: rest)
include hb hturns hp

/-- A FINALIZE written with no turns given runs to DONE before the host goes on. -/
theorem reaches_done_of_wr_finalize (hlc : s.lc = .active) (hc : decode c = .command .finalize) :
    ∃ t, Reaches s t ∧ t.busy = false ∧ t.lc = .done ∧ t.turns = [] ∧ t.host.program = rest ∧
      ∀ e, t.err e = s.err e := by
  have haccepted := step_of_wr_finalize hb (by simp [hostMoves, hturns, hb]) hp hlc hc
  have hturns' : laterTurns s = [] := congrArg List.tail hturns
  generalize hu : withProgram rest (withTurns (laterTurns s) s) = u at haccepted
  have hend := reaches_complete_of_runAccepted (k := finalizeLatency s.lat (finalizeCompressions s))
    (runsTo_finalize u) (by rw [← hu]; exact hturns')
  obtain ⟨-, -, hkept, hhost⟩ := sameSurroundings_finalizeEffect (accept .finalize u)
  refine ⟨_, .head haccepted hend, rfl, rfl, ?turns, ?program, fun e => by simp [← hu]⟩
  case turns => rw [complete_turns, hkept, ← hu]; exact hturns'
  case program => rw [complete_host, hhost, ← hu]; rfl

/-- An INIT written with no turns given runs to ACTIVE, with the error bits cleared. -/
theorem reaches_active_of_wr_init (hc : decode c = .command .init) :
    ∃ t, Reaches s t ∧ t.busy = false ∧ t.lc = .active ∧ t.host.program = rest ∧ ∀ e, t.err e = false := by
  have haccepted := step_of_wr_init hb (by simp [hostMoves, hturns, hb]) hp hc
  have hend := reaches_complete_of_runAccepted (k := s.lat.init)
    (runsTo_init (clearErrors (withProgram rest (withTurns (laterTurns s) s)))) (congrArg List.tail hturns)
  exact ⟨_, .head haccepted hend, rfl, rfl, rfl, fun e => by simp⟩

end

section
variable {s : State} (hb : s.busy = false) (hlc : s.lc = .active)
include hb hlc

/-- The FINALIZE has completed: the INIT is accepted, and ends. -/
theorem reaches_init_accepted :
    ∃ t, Reaches (withFinalizeThenInit [] s) t ∧ t.host.program = [] ∧ status t = 0x00000002 := by
  obtain ⟨u, hsu, hbu, -, hturns, hpu, -⟩ := reaches_done_of_wr_finalize (s := withFinalizeThenInit [] s)
    hb rfl rfl hlc (decode_encode (i := .finalize) rfl)
  obtain ⟨t, hut, hbt, hlct, hpt, herr⟩ := reaches_active_of_wr_init hbu hturns hpu (decode_encode (i := .init) rfl)
  refine ⟨t, hsu.trans hut, hpt, ?_⟩
  rw [status_eq_of_fields hbt hlct herr]
  decide

/-- The INIT meets BUSY = 1: it is discarded, and the FINALIZE ends. -/
theorem reaches_init_rejected (herr : ∀ e, s.err e = false)
    (hlat : finalizeLatency s.lat (finalizeCompressions s) ≠ 0) :
    ∃ t, Reaches (withFinalizeThenInit [.host, .host] s) t ∧ t.host.program = [] ∧ status t = 0x00000804 := by
  have haccepted : step (withFinalizeThenInit [.host, .host] s) =
      .next (accept .finalize (withProgram [wr .cmd 0x00000001] (withTurns [.host] s))) :=
    (step_of_wr_finalize (s := withFinalizeThenInit [.host, .host] s) hb rfl rfl hlc
      (decode_encode (i := .finalize) rfl)).trans (congrArg _ (runAccepted_of_ne_zero hlat _ _ _))
  obtain ⟨u, hu⟩ : ∃ u, u = accept .finalize (withProgram [] (withTurns [] s)) := ⟨_, rfl⟩
  have hrejected : step (accept .finalize (withProgram [wr .cmd 0x00000001] (withTurns [.host] s))) =
      .next (raise .busy u) := by
    rw [step_of_wr_cmd rfl rfl, presentCommand_of_busy rfl, hu]
    rfl
  have hend : Reaches (raise .busy u) (raise .busy (complete (finalizeEffect u))) := by
    rw [hu]
    exact (runsTo_finalize _).with_busyError.reaches rfl rfl
  refine ⟨_, .head haccepted (.head hrejected hend), ?program, ?status⟩
  case program => rw [raise_host, complete_host, (sameSurroundings_finalizeEffect u).host_eq, hu]; rfl
  case status =>
    rw [status_eq_of_fields (b := false) (l := .done) (f := fun e => decide (e = .busy)) rfl rfl
      (fun e => by simp [hu, herr])]
    decide

end

/-- Settles O28: both writes at once, or the second one after the engine's steps. -/
theorem bothBusyOutcomesOccur : Obligations.BothBusyOutcomesOccur := by
  unfold Obligations.BothBusyOutcomesOccur
  intro s ⟨hb, _, _⟩ hlc herr hlat
  obtain ⟨t, ⟨n, hn⟩, ht⟩ := reaches_init_rejected hb hlc herr hlat
  obtain ⟨t', ⟨n', hn'⟩, ht'⟩ := reaches_init_accepted hb hlc
  exact ⟨⟨_, n, t, hn, ht⟩, ⟨_, n', t', hn', ht'⟩⟩

end Sys2Proof.Machine

end

section
/-! SUPPORT for O38, O50 and O51: what the engine does not read, and the block after a reset (70_reset_and_hazards.md
R101 to R103, R108). -/

namespace Sys2Proof.Machine

/-! ### What the engine does not read -/

/-- The same message, transform and command state, with the error bits, DATA_IN, the parameters, the turns and the host
of `x`. -/
def withSurroundings (x s : State) : State :=
  { s with
    errCmd := x.errCmd, errSeq := x.errSeq, errOvf := x.errOvf, errBusy := x.errBusy
    dataIn := x.dataIn, lat := x.lat, turns := x.turns, host := x.host }

theorem takeBitCount_withSurroundings (x s : State) :
    takeBitCount (withSurroundings x s) = withSurroundings x (takeBitCount s) := by
  unfold takeBitCount
  rw [apply_ite (withSurroundings x)]
  rfl

theorem absorbPhase_withSurroundings (x s : State) :
    absorbPhase (withSurroundings x s) = withSurroundings x (absorbPhase s) := by
  have hlatch : (withSurroundings x s).latch = s.latch := rfl
  unfold absorbPhase
  rw [hlatch]
  cases s.latch.op with
  | nop | init | finalize => rfl
  | absorb nb => simp only [apply_ite (withSurroundings x)]; rfl

theorem padPhase_withSurroundings (x s : State) :
    padPhase (withSurroundings x s) = withSurroundings x (padPhase s) := by
  have hlatch : (withSurroundings x s).latch = s.latch := rfl
  unfold padPhase
  rw [hlatch]
  cases s.latch.op with
  | nop | init | absorb nb => rfl
  | finalize => simp only [takeBitCount_withSurroundings, apply_ite (withSurroundings x)]; rfl

theorem schedPhase_withSurroundings (x s : State) :
    schedPhase (withSurroundings x s) = withSurroundings x (schedPhase s) := by
  unfold schedPhase
  simp only [apply_ite (withSurroundings x)]
  rfl

theorem feedPhase_withSurroundings (x s : State) :
    feedPhase (withSurroundings x s) = withSurroundings x (feedPhase s) := by
  have hlatch : (withSurroundings x s).latch = s.latch := rfl
  unfold feedPhase
  dsimp only
  rw [hlatch]
  cases s.latch.resume <;> rfl

/-- An engine step neither reads nor writes an error bit, DATA_IN, the parameters, the turns or the host. -/
theorem engineStep_withSurroundings (x s : State) :
    engineStep (withSurroundings x s) = withSurroundings x (engineStep s) := by
  have hseq : (withSurroundings x s).seq = s.seq := rfl
  unfold engineStep
  rw [hseq]
  cases s.seq.phase with
  | idle | round => rfl
  | absorb => exact absorbPhase_withSurroundings x s
  | pad => exact padPhase_withSurroundings x s
  | sched => exact schedPhase_withSurroundings x s
  | feed => exact feedPhase_withSurroundings x s

/-- The engine works on the operands it captured, and a write to DATA_IN passes it by (70_reset_and_hazards.md R108). -/
theorem engineStep_writeDataIn (v : Word) (s : State) :
    engineStep (writeDataIn v s) = writeDataIn v (engineStep s) := by
  calc engineStep (writeDataIn v s)
      = withSurroundings (writeDataIn v s) (engineStep s) := engineStep_withSurroundings (writeDataIn v s) s
    _ = writeDataIn v (engineStep s) := by rw [engineStep_onlyEngineMoved s]; rfl

theorem engineRun_writeDataIn (n : Nat) (v : Word) (s : State) :
    engineRun n (writeDataIn v s) = writeDataIn v (engineRun n s) := by
  induction n generalizing s with
  | zero => rfl
  | succ n ih => rw [engineRun_succ, engineStep_writeDataIn, ih, engineRun_succ]

/-- Settles O38: ABSORB's acceptance captures DATA_IN, and no engine step reads or writes the register. -/
theorem dataInMayBeRewrittenAtOnce : Obligations.DataInMayBeRewrittenAtOnce := by
  unfold Obligations.DataInMayBeRewrittenAtOnce
  exact ⟨fun s nb => rfl, fun s v n => engineRun_writeDataIn n v s⟩

/-! ### After a reset -/

/-- No message has been consumed, so there is no digest to read (10_state.md R26). -/
theorem digestReg_of_ne_done {s : State} (h : s.lc ≠ .done) (k : Fin 8) : digestReg s k = 0 :=
  if_neg fun hdone => h hdone.1

/-- After a reset STATUS reads 0 (70_reset_and_hazards.md R101). -/
theorem status_resetBlock (s : State) : status (resetBlock s) = 0 := by
  rw [status_eq_of_fields (b := false) (l := .empty) (f := fun _ => false) rfl rfl (resetBlock_err s)]
  decide

theorem digestReg_resetBlock (s : State) (k : Fin 8) : digestReg (resetBlock s) k = 0 :=
  digestReg_of_ne_done (s := resetBlock s) nofun k

/-- Settles O50: a reset turn ends in `resetBlock`, and `State.reset` is the reset of itself. -/
theorem resetValues : Obligations.ResetValues := by
  unfold Obligations.ResetValues
  refine ⟨fun s ts hts => ?turn, rfl, rfl, rfl, rfl, rfl, rfl, rfl, rfl, status_resetBlock State.reset,
    digestReg_resetBlock State.reset⟩
  have hstep : step s = .next (resetBlock (withTurns (laterTurns s) s)) :=
    step_of_resetMoves (by rw [resetMoves, hts])
  refine ⟨_, hstep, rfl, rfl, rfl, rfl, rfl, rfl, rfl, rfl, status_resetBlock _, fun k => ?_⟩
  rw [memRead, regAt_digest]
  exact digestReg_resetBlock _ k

/-- Settles O51: the block is idle and EMPTY, so the checks of R92 stop at the lifecycle for ABSORB and FINALIZE. -/
theorem afterResetTheBlockWaitsForInit : Obligations.AfterResetTheBlockWaitsForInit := by
  unfold Obligations.AfterResetTheBlockWaitsForInit
  rintro s r rfl
  have hb : (resetBlock s).busy = false := rfl
  have hlc : (resetBlock s).lc ≠ .active := nofun
  exact ⟨⟨_, exec_init hb, runAccepted_init_busy_or_active _ _⟩, exec_nop hb,
    fun nb hnb => exec_absorb_not_active hb hnb hlc, exec_finalize_not_active hb hlc,
    fun c why hc => presentCommand_of_illegal hb hc, digestReg_resetBlock s⟩

end Sys2Proof.Machine

end

section
/-! SUPPORT for O48 and O49: the steps a running command has left, and a POLL under any turns (30_encoding.md R54,
70_reset_and_hazards.md R111). -/

namespace Sys2Proof.Machine

/-! ### The steps a running command has left -/

/-- The steps from a place of a COMPRESS to the end of its (FEED, 0): one for (SCHED, 0), 48 for the schedule, 64 rounds
and the feed-forward. -/
def compressSteps (q : Seq) : Nat :=
  match q.phase with
  | .sched => if q.t = 0 then 114 else 129 - q.t.val
  | .round => 65 - q.t.val
  | .feed => 1
  | .idle => 0
  | .absorb => 0
  | .pad => 0

/-- The steps of a command from its own place with index `t`, at the offset `off` of BUF. -/
def commandSteps (op : Instr) (t : Fin 64) (off : Nat) : Nat :=
  match op with
  | .nop => 0
  | .init => 1
  | .absorb nb => byteSteps off (nb.toNat - t.val) + 1
  | .finalize => byteSteps off ((119 - off) % 64 + 1) + 114

/-- The steps of the command after the compression inside it; FINALIZE's last one completes the command. -/
def resumeSteps (s : State) : Nat :=
  match s.latch.resume with
  | some q => commandSteps s.latch.op q.t (offset s)
  | none => 0

/-- The engine steps that a running command has left; none at IDLE. `stepsLeft_engineStep` ties it to the model. -/
def stepsLeft (s : State) : Nat :=
  match s.seq.phase with
  | .idle => 0
  | .absorb => commandSteps s.latch.op s.seq.t (offset s)
  | .pad => commandSteps s.latch.op s.seq.t (offset s)
  | .sched => compressSteps s.seq + resumeSteps s
  | .round => compressSteps s.seq + resumeSteps s
  | .feed => compressSteps s.seq + resumeSteps s

theorem resumeSteps_of_some {s : State} {q : Seq} (hq : s.latch.resume = some q) :
    resumeSteps s = commandSteps s.latch.op q.t (offset s) := by
  rw [resumeSteps, hq]

theorem resumeSteps_of_none {s : State} (hq : s.latch.resume = none) : resumeSteps s = 0 := by
  rw [resumeSteps, hq]

@[simp] theorem stepsLeft_complete (s : State) : stepsLeft (complete s) = 0 := rfl

theorem stepsLeft_of_own_phase {s : State} (h : s.seq.phase = .absorb ∨ s.seq.phase = .pad) :
    stepsLeft s = commandSteps s.latch.op s.seq.t (offset s) := by
  obtain h | h := h <;> simp [stepsLeft, h]

theorem stepsLeft_of_inCompress {s : State} (h : inCompress s.seq = true) :
    stepsLeft s = compressSteps s.seq + resumeSteps s := by
  obtain hq | ⟨t, hq, -⟩ | ⟨t, hq⟩ | hq := (inCompress_iff _).mp h <;> simp [stepsLeft, hq]

/-! ### One step less -/

/-- Each place of a COMPRESS before (FEED, 0) is one step. -/
theorem compressSteps_engineStep {s : State} (h : inCompress s.seq = true) (hfeed : s.seq ≠ ⟨.feed, 0⟩) :
    compressSteps s.seq = compressSteps (engineStep s).seq + 1 := by
  obtain hq | ⟨t, hq, ht⟩ | ⟨t, hq⟩ | hq := (inCompress_iff _).mp h
  · rw [engineStep_sched_zero hq, hq]; rfl
  · rw [engineStep_sched hq ht, hq]
    have hne : t ≠ 0 := by rintro rfl; simp at ht
    by_cases hlast : t.val = 63
    · simp [compressSteps, hlast, hne]
    · have hval : (t + 1).val = t.val + 1 := Fin.val_add_one_of_lt' (by omega)
      have hne' : t + 1 ≠ 0 := fun h0 => by simp [h0] at hval
      simp only [compressSteps, if_neg hlast, if_neg hne, if_neg hne', hval]
      omega
  · rw [engineStep_round hq, hq]
    by_cases hlast : t.val = 63
    · simp [compressSteps, hlast]
    · have hval : (t + 1).val = t.val + 1 := Fin.val_add_one_of_lt' (by omega)
      simp only [compressSteps, if_neg hlast, hval]
      omega
  · exact absurd hq hfeed

/-- The place captured by a compression inside a command is one of the command's own. -/
theorem resume_phase_of_runningPlace {s : State} (hin : inCompress s.seq = true) (h : runningPlace s = true) {q : Seq}
    (hq : s.latch.resume = some q) : q.phase = .absorb ∨ q.phase = .pad := by
  obtain ⟨-, habsorb, hpad⟩ := phase_of_inCompress hin
  cases hop : s.latch.op with
  | nop => simp [runningPlace, hop] at h
  | init => exact absurd (congrArg Seq.phase ((runningPlace_init hop).mp h)) habsorb
  | absorb nb =>
    obtain ⟨-, ⟨hphase, -⟩ | ⟨-, -, q', hq', hphase, -⟩⟩ := (runningPlace_absorb hop).mp h
    · exact absurd hphase habsorb
    · cases hq.symm.trans hq'
      exact .inl hphase
  | finalize =>
    obtain ⟨-, ⟨hphase, -⟩ | ⟨-, ⟨q', hq', hphase, -⟩ | ⟨hnone, -⟩⟩⟩ := (runningPlace_finalize hop).mp h
    · exact absurd hphase hpad
    · cases hq.symm.trans hq'
      exact .inr hphase
    · cases hq.symm.trans hnone

theorem stepsLeft_engineStep_compress {s : State} (hin : inCompress s.seq = true) (h : runningPlace s = true) :
    stepsLeft s = stepsLeft (engineStep s) + 1 := by
  rw [stepsLeft_of_inCompress hin]
  by_cases hfeed : s.seq = ⟨.feed, 0⟩
  · have hone : compressSteps s.seq = 1 := by rw [hfeed]; rfl
    rw [hone]
    cases hq : s.latch.resume with
    | none => rw [resumeSteps_of_none hq, engineStep_feed_none hfeed hq, stepsLeft_complete]
    | some q =>
      rw [resumeSteps_of_some hq, engineStep_feed_some hfeed hq,
        stepsLeft_of_own_phase (resume_phase_of_runningPlace hin h hq)]
      exact Nat.add_comm _ _
  · obtain ⟨hin', hstep⟩ := engineStep_of_inCompress hin hfeed
    have hresume : resumeSteps (engineStep s) = resumeSteps s := by rw [hstep]; rfl
    rw [stepsLeft_of_inCompress hin', compressSteps_engineStep hin hfeed, hresume]
    omega

/-- One byte is one step, and 114 more where it fills the block (40_commands.md R59). -/
theorem byteSteps_succ_of_lt {off : Nat} (h : off < 64) (n : Nat) :
    byteSteps off (n + 1) = (if (off + 1) % 64 = 0 then 114 else 0) + byteSteps ((off + 1) % 64) n + 1 := by
  unfold byteSteps
  split <;> omega

/-- After a byte the command has its steps from the next place left, and 114 more where a compression comes between. -/
theorem stepsLeft_after_byte {p : Phase} (hp : p = .absorb ∨ p = .pad) (t : Fin 64) (u : State) :
    stepsLeft (if offset u = 0 then startCompress (some ⟨p, t⟩) u else goto ⟨p, t⟩ u) =
      (if offset u = 0 then 114 else 0) + commandSteps u.latch.op t (offset u) := by
  split
  · rfl
  · exact (stepsLeft_of_own_phase (s := goto ⟨p, t⟩ u) hp).trans (Nat.zero_add _).symm

/-- (ABSORB, t) of an ABSORB: a byte, perhaps with its compression, or the completion. -/
theorem stepsLeft_engineStep_absorb {s : State} {nb : BitVec 3} (hop : s.latch.op = .absorb nb)
    (hphase : s.seq.phase = .absorb) (ht : s.seq.t.val ≤ nb.toNat) :
    stepsLeft s = stepsLeft (engineStep s) + 1 := by
  have hseq : s.seq = ⟨.absorb, s.seq.t⟩ := by rw [← hphase]
  rw [stepsLeft_of_own_phase (.inl hphase), hop, commandSteps]
  obtain hlt | heq := Nat.lt_or_eq_of_le ht
  · have hnb := nb.isLt
    have hval : (s.seq.t + 1).val = s.seq.t.val + 1 := Fin.val_add_one_of_lt' (by omega)
    have hleft : nb.toNat - s.seq.t.val = nb.toNat - (s.seq.t + 1).val + 1 := by omega
    obtain ⟨u, hu⟩ : ∃ u, u = placeByte (wordByte s.latch.din s.seq.t.val) s := ⟨_, rfl⟩
    have huop : u.latch.op = .absorb nb := by rw [hu, placeByte_latch, hop]
    have hoff : offset u = (offset s + 1) % 64 := by rw [hu, offset_placeByte]
    rw [engineStep_absorb_byte hseq hop hlt, ← hu, stepsLeft_after_byte (.inl rfl), huop, commandSteps, hleft,
      byteSteps_succ_of_lt (offset_lt s), ← hoff]
    omega
  · rw [engineStep_absorb_end hseq hop (by omega), stepsLeft_complete, heq, Nat.sub_self, byteSteps_zero (offset_lt s)]

/-- (PAD, t): a padding byte, perhaps with its compression; at offset 56 the last compression follows. -/
theorem stepsLeft_engineStep_pad {s : State} (hop : s.latch.op = .finalize) (hphase : s.seq.phase = .pad) :
    stepsLeft s = stepsLeft (engineStep s) + 1 := by
  have hseq : s.seq = ⟨.pad, s.seq.t⟩ := by rw [← hphase]
  have hlt := offset_lt s
  rw [stepsLeft_of_own_phase (.inr hphase), hop, commandSteps]
  obtain ⟨u, hu⟩ : ∃ u, u = placeByte (padByte s.seq.t) (takeBitCount s) := ⟨_, rfl⟩
  have hoff : offset u = (offset s + 1) % 64 := by rw [hu, offset_placeByte, offset, offset, takeBitCount_count]
  have huop : u.latch.op = .finalize := by rw [hu, placeByte_latch, takeBitCount_latch_op, hop]
  rw [engineStep_pad hseq hop, byteSteps_succ_of_lt hlt, ← hoff]
  simp only [← hu]
  by_cases h56 : offset u = 56
  · have hlast : (119 - offset s) % 64 = 0 := by omega
    rw [h56, hlast]
    rfl
  · have hleft : (119 - offset s) % 64 = (119 - offset u) % 64 + 1 := by omega
    rw [if_neg h56, stepsLeft_after_byte (.inr rfl), huop, commandSteps, hleft]
    omega

/-- A running command has one step less after each engine step. -/
theorem stepsLeft_engineStep {s : State} (h : runningPlace s = true) : stepsLeft s = stepsLeft (engineStep s) + 1 := by
  cases hop : s.latch.op with
  | nop => simp [runningPlace, hop] at h
  | init =>
    have hseq := (runningPlace_init hop).mp h
    rw [engineStep_init hseq hop, stepsLeft_complete, stepsLeft_of_own_phase (.inl (congrArg Seq.phase hseq)), hop]
    rfl
  | absorb nb =>
    obtain ⟨-, ⟨hphase, ht⟩ | ⟨hin, -⟩⟩ := (runningPlace_absorb hop).mp h
    · exact stepsLeft_engineStep_absorb hop hphase ht
    · exact stepsLeft_engineStep_compress hin h
  | finalize =>
    obtain ⟨-, ⟨hphase, -⟩ | ⟨hin, -⟩⟩ := (runningPlace_finalize hop).mp h
    · exact stepsLeft_engineStep_pad hop hphase
    · exact stepsLeft_engineStep_compress hin h

theorem EngineInv.stepsLeft_pos {s : State} (h : EngineInv s) (hb : s.busy = true) : 0 < stepsLeft s := by
  rw [stepsLeft_engineStep (h.running hb)]
  exact Nat.succ_pos _

/-- The steps left are enough. -/
theorem EngineInv.engineRun_stepsLeft_busy {s : State} (h : EngineInv s) : (engineRun (stepsLeft s) s).busy = false := by
  induction hn : stepsLeft s generalizing s with
  | zero => exact Bool.eq_false_iff.mpr fun hb => (h.stepsLeft_pos hb).ne' hn
  | succ n ih =>
    cases hb : s.busy with
    | false => simp [stepsLeft, (h.rest hb).1, Seq.rest] at hn
    | true =>
      have hstep := stepsLeft_engineStep (h.running hb)
      exact ih h.after_engineStep (by omega)

/-! ### At most 300 -/

theorem compressSteps_le {q : Seq} (h : inCompress q = true) : compressSteps q ≤ 114 := by
  obtain rfl | ⟨t, rfl, ht⟩ | ⟨t, rfl⟩ | rfl := (inCompress_iff q).mp h
  · decide
  · simp only [compressSteps]
    split <;> omega
  · simp only [compressSteps]
    omega
  · decide

/-- At most four bytes fill at most one block. -/
theorem commandSteps_absorb_le {nb : BitVec 3} (hnb : nb.toNat ≤ 4) (t : Fin 64) {off : Nat} (hoff : off < 64) :
    commandSteps (.absorb nb) t off ≤ 119 := by
  simp only [commandSteps, byteSteps]
  omega

/-- At most 64 padding bytes fill at most one block, and the last compression follows. -/
theorem commandSteps_finalize_le (t : Fin 64) {off : Nat} (hoff : off < 64) : commandSteps .finalize t off ≤ 292 := by
  simp only [commandSteps, byteSteps]
  omega

/-- The longest command is a FINALIZE of 64 padding bytes and two compressions. -/
theorem stepsLeft_le {s : State} (h : runningPlace s = true) : stepsLeft s ≤ 292 := by
  have hlt := offset_lt s
  cases hop : s.latch.op with
  | nop => simp [runningPlace, hop] at h
  | init =>
    rw [stepsLeft_of_own_phase (.inl (congrArg Seq.phase ((runningPlace_init hop).mp h))), hop, commandSteps]
    decide
  | absorb nb =>
    obtain ⟨⟨hnb, -⟩, ⟨hphase, -⟩ | ⟨hin, -, q, hq, -⟩⟩ := (runningPlace_absorb hop).mp h
    · have hle := commandSteps_absorb_le hnb s.seq.t hlt
      rw [stepsLeft_of_own_phase (.inl hphase), hop]
      omega
    · have hle := commandSteps_absorb_le hnb q.t hlt
      have hin_le := compressSteps_le hin
      rw [stepsLeft_of_inCompress hin, resumeSteps_of_some hq, hop]
      omega
  | finalize =>
    obtain ⟨-, ⟨hphase, -⟩ | ⟨hin, ⟨q, hq, -, -, h0, -⟩ | ⟨hq, -⟩⟩⟩ := (runningPlace_finalize hop).mp h
    · rw [stepsLeft_of_own_phase (.inr hphase), hop]
      exact commandSteps_finalize_le s.seq.t hlt
    · have hle : commandSteps .finalize q.t 0 = 170 := rfl
      have hin_le := compressSteps_le hin
      rw [stepsLeft_of_inCompress hin, resumeSteps_of_some hq, hop, h0]
      omega
    · rw [stepsLeft_of_inCompress hin, resumeSteps_of_none hq]
      exact (compressSteps_le hin).trans (by decide)

/-- Settles O48: as many steps as the command has left. -/
theorem everyRunningCommandEnds : Obligations.EveryRunningCommandEnds := by
  unfold Obligations.EveryRunningCommandEnds
  exact fun s h hb => ⟨stepsLeft s, (stepsLeft_le (h.running hb)).trans (by decide), h.engineRun_stepsLeft_busy⟩

/-! ### POLL -/

/-- A step at a POLL ends it with BUSY = 0, or uses up a turn, or, with no turns given, is an engine step of the running
command (30_encoding.md R54, log entry 3). -/
theorem step_of_poll {s : State} {rest : List Stmt} (hp : s.host.program = .poll :: rest) :
    ∃ t, step s = .next t ∧
      ((t.host.program = rest ∧ t.busy = false) ∨
       (t.host.program = .poll :: rest ∧ t.turns = laterTurns s ∧
        (s.turns = [] → s.busy = true ∧ t = engineStep s))) := by
  obtain ⟨hr, h⟩ | ⟨-, hh, h⟩ | ⟨-, hh, h⟩ := step_cases s
  case inl =>
    refine ⟨_, h, .inr ⟨hp, rfl, fun hnil => ?_⟩⟩
    simp [resetMoves, hnil] at hr
  case inr.inl =>
    obtain ⟨hturns, hhost, -⟩ := engineStep_outside (withTurns (laterTurns s) s)
    refine ⟨_, h, .inr ⟨(congrArg HostAgent.program hhost).trans hp, hturns, fun hnil => ?_⟩⟩
    have hsame : withTurns (laterTurns s) s = s := by rw [laterTurns, hnil, List.tail_nil, ← hnil]; rfl
    exact ⟨by simpa [hostMoves, hnil] using hh, congrArg engineStep hsame⟩
  case inr.inr =>
    rw [h, hostTurn, withTurns_host, hp]
    simp only [busRead, status_getElem_zero, withTurns_busy]
    cases hb : s.busy with
    | false => exact ⟨_, rfl, .inl ⟨rfl, hb⟩⟩
    | true =>
      refine ⟨_, rfl, .inr ⟨hp, rfl, fun hnil => ?_⟩⟩
      simp [hostMoves, hnil, hb] at hh

/-- The POLL at the head of the host's statements ends. -/
def PollEnds (rest : List Stmt) (s : State) : Prop := ∃ t, Reaches s t ∧ t.host.program = rest ∧ t.busy = false

theorem PollEnds.head {rest : List Stmt} {s t : State} (h : step s = .next t) (ht : PollEnds rest t) :
    PollEnds rest s := by
  obtain ⟨u, htu, hu⟩ := ht
  exact ⟨u, .head h htu, hu⟩

/-- With no turns given the running command goes on to its end, and the host then reads BUSY = 0. -/
theorem pollEnds_of_no_turns {s : State} {rest : List Stmt} (h : EngineInv s) (hp : s.host.program = .poll :: rest)
    (hnil : s.turns = []) : PollEnds rest s := by
  induction hn : stepsLeft s using Nat.strong_induction_on generalizing s with
  | _ n ih =>
    obtain ⟨t, ht, hended | ⟨hpt, hturns, hstay⟩⟩ := step_of_poll hp
    · exact ⟨t, .head ht (.refl t), hended⟩
    · obtain ⟨hb, rfl⟩ := hstay hnil
      have hless := stepsLeft_engineStep (h.running hb)
      exact .head ht (ih _ (by omega) (h.after_step ht) hpt (hturns.trans (congrArg List.tail hnil)) rfl)

/-- Each turn given is used up by a step, which ends the POLL or leaves it. -/
theorem pollEnds {s : State} {rest : List Stmt} (h : EngineInv s) (hp : s.host.program = .poll :: rest) :
    PollEnds rest s := by
  induction hts : s.turns generalizing s with
  | nil => exact pollEnds_of_no_turns h hp hts
  | cons a ts ih =>
    obtain ⟨t, ht, hended | ⟨hpt, hturns, -⟩⟩ := step_of_poll hp
    · exact ⟨t, .head ht (.refl t), hended⟩
    · exact .head ht (ih (h.after_step ht) hpt (hturns.trans (congrArg List.tail hts)))

/-- Settles O49: first the turns given are used up, then the running command ends. -/
theorem pollEndsUnderEverySchedule : Obligations.PollEndsUnderEverySchedule := by
  unfold Obligations.PollEndsUnderEverySchedule
  intro s rest h hp
  obtain ⟨t, ⟨n, hn⟩, ht⟩ := pollEnds h hp
  exact ⟨n, t, hn, ht⟩

end Sys2Proof.Machine

end

section
/-! SUPPORT for O47: the engine at reset (70_reset_and_hazards.md §1). -/

namespace Sys2Proof.Machine

/-- Settles O47: a reset leaves BUSY = 0, and SEQ and the latch at rest. -/
theorem resetMeetsTheEngineInvariant : Obligations.ResetMeetsTheEngineInvariant := by
  unfold Obligations.ResetMeetsTheEngineInvariant
  have hbusy : State.reset.busy = false := rfl
  have hrest : State.reset.seq = Seq.rest ∧ State.reset.latch = Latch.rest := ⟨rfl, rfl⟩
  exact engineInv_of_rest hbusy hrest

end Sys2Proof.Machine

end
